-- ==== Sys2Proof/Word.lean ====
section
/-! DEFINITION. The word types of the block (00_scope.md R10, R11): bit 0 is the least significant bit of
every value and all values are unsigned. -/

namespace Sys2Proof

/-- A command word or a response (00_scope.md R10). -/
abbrev Word := BitVec 32

/-- A 16-bit register: KEYS, NEWP, ACC, TCNT, TCMP, VMS, DMS, W (00_scope.md R10). -/
abbrev Half := BitVec 16

/-- A value of PHASE, 5 bits (10_state.md R24). -/
abbrev Phase := BitVec 5

end Sys2Proof
end

