-- ==== Sys2Proof/Config.lean ====
section
/-! DEFINITION. What is fixed for a build (00_scope.md R8, R9), the events of the block (00_scope.md R13), and the
free values: which event comes next where the environment's list of inputs says nothing (20_memory.md R67). -/

namespace Sys2Proof

/-- The implementation parameters of 00_scope.md R8. NRELAYS is the number of polarity flags, since R8 gives one
INVERT bit for each relay i < NRELAYS. TICK_PERIOD is real time and is left out (log 17). -/
structure Config where
  /-- NBITS, 8 or 12. -/
  nbits    : Nat
  /-- T_BIT, the inter-bit interval in timer ticks. -/
  tBit     : Half
  /-- T_POLL, the inter-poll interval in timer ticks. -/
  tPoll    : Half
  /-- INVERT[i], one polarity flag per relay. -/
  invert   : List Bool
  /-- VALVE_IDX. -/
  valveIdx : Nat
  /-- CUE_IDX. -/
  cueIdx   : Nat
  /-- REL_IDX. -/
  relIdx   : Nat
  /-- T_PREP_MS. -/
  tPrepMs  : Half
  /-- T_REL_MS. -/
  tRelMs   : Half
  deriving DecidableEq, Repr

namespace Config

/-- NRELAYS (00_scope.md R8). -/
def nrelays (c : Config) : Nat := c.invert.length

/-- PHASES = 2 + 2*NBITS (00_scope.md R8): 18 for 8 bits, 26 for 12. -/
def phases (c : Config) : Nat := 2 + 2 * c.nbits

/-- The configurations that 00_scope.md R9 admits. -/
def wf (c : Config) : Bool :=
  (c.nbits == 8 || c.nbits == 12) && (1 ≤ c.nrelays && c.nrelays ≤ 8) &&
  (c.valveIdx < c.nrelays && c.cueIdx < c.nrelays && c.relIdx < c.nrelays) &&
  (c.valveIdx != c.cueIdx && c.valveIdx != c.relIdx && c.cueIdx != c.relIdx)

/-- The configuration that 95_test_vectors.md runs its vectors on: NBITS = 8, T_BIT = 2, T_POLL = 10, NRELAYS = 3,
no relay inverted, VALVE_IDX 0, CUE_IDX 1, REL_IDX 2, T_PREP_MS = 20, T_REL_MS = 30.
DESIGN CHOICE (log 2): State.reset is under it; of these values 00_scope.md R8 fixes only NBITS. -/
def vectors : Config where
  nbits := 8
  tBit := 2
  tPoll := 10
  invert := [false, false, false]
  valveIdx := 0
  cueIdx := 1
  relIdx := 2
  tPrepMs := 20
  tRelMs := 30

end Config

/-- A tick of one of the two time bases (00_scope.md R13): TTICK, with the level of the DATA line at that event
(10_state.md R33), or MSTICK. -/
inductive Tick where
  | timer (data : Bool)
  | ms
  deriving DecidableEq, Repr, Inhabited

/-- The events of 00_scope.md R13. -/
inductive Event where
  /-- HOST(c): the host presents command word c. -/
  | host (c : Word)
  /-- TTICK or MSTICK. -/
  | tick (t : Tick)
  deriving DecidableEq, Repr, Inhabited

/-- TTICK with the given level of the DATA line. -/
abbrev Event.ttick (data : Bool) : Event := .tick (.timer data)

/-- MSTICK. -/
abbrev Event.mstick : Event := .tick .ms

/-- FREE VALUE (log 3): the event number n, where the environment's inputs name none (20_memory.md R67 leaves the
order of events, the host's words and the DATA level open). -/
opaque Config.freeEvent : Nat → Event

/-- FREE VALUE (log 3): the event number n while the host is held (43_sequencer.md R182), where the environment's
inputs name no tick. -/
opaque Config.freeTick : Nat → Tick

end Sys2Proof
end

