-- ==== Sys2Proof/Syntax.lean ====
section
/-! DEFINITION. The instructions: one constructor for each row of spec/opcode_table.json, the thirteen command rows
(30_encoding.md R85, R87) and the fourteen micro-operations the block selects by itself (R90, R91). -/

namespace Sys2Proof

/-- The reference point of a capture (30_encoding.md R83). -/
inductive Ref where
  | fromOpen
  | fromClose
  deriving DecidableEq, Repr

/-- Bit REF of a command word and the value of CREF: 0 from-valve-open, 1 from-valve-close (30_encoding.md R83). -/
def Ref.bit : Ref → Bool
  | .fromOpen => false
  | .fromClose => true

/-- One constructor per row of the opcode table. -/
inductive Instr where
  -- host commands, 30_encoding.md R81
  | start
  | stop
  | getheld
  | getpressed
  | ropen (idx : BitVec 3)
  | rclose (idx : BitVec 3)
  | risopen (idx : BitVec 3)
  | risclosed (idx : BitVec 3)
  | setv (ms : Half)
  | setd (ms : Half)
  | capture (ref : Ref)
  | getstatus
  /-- A word that spells no command (30_encoding.md R87); it carries the word (log 13). -/
  | illegal (word : Word)
  -- decoder phase operations, 30_encoding.md R90
  | phLatch
  | phUnlatch
  /-- PH_CLKHI at the even phase p (log 14). -/
  | phClkhi (p : Phase)
  /-- PH_SAMPLE(p) at the odd phase p, as 40_decoder.md R104 calls it (log 14). -/
  | phSample (p : Phase)
  | phPublish
  -- timer and sequencer operations, 30_encoding.md R91
  | ttIdle
  | ttCount
  | ttMatch
  | msIdle
  | msCount
  | seqEndPrep
  | seqEndValve
  | seqEndDelay
  | seqEndRelease
  deriving DecidableEq, Repr

end Sys2Proof
end

