-- ==== Sys2Proof/WellFormed.lean ====
section
/-! DEFINITION. Which instructions are well formed: an ILLEGAL carries a word that spells no command
(30_encoding.md R87), PH_CLKHI and PH_SAMPLE carry a phase of their class (30_encoding.md R90). Every other operand is
legal at every value of its field (30_encoding.md R82 to R84). The check of a configuration is Config.wf (00_scope.md R9). -/

namespace Sys2Proof

/-- The word spells a command, read field by field as 30_encoding.md R85 and R87 say it: OP is defined, and RSV and
every field that opcode does not use are 0. -/
def isCommandWord (w : Word) : Bool :=
  let op := (w.extractLsb' 28 4).toNat
  let refZero := w.extractLsb' 27 1 == 0
  let idxZero := w.extractLsb' 24 3 == 0
  let rsvZero := w.extractLsb' 16 8 == 0
  let immZero := w.extractLsb' 0 16 == 0
  if op == 0x1 || op == 0x2 || op == 0x3 || op == 0x4 || op == 0xC then refZero && idxZero && rsvZero && immZero
  else if op == 0x5 || op == 0x6 || op == 0x7 || op == 0x8 then refZero && rsvZero && immZero
  else if op == 0x9 || op == 0xA then refZero && idxZero && rsvZero
  else if op == 0xB then idxZero && rsvZero && immZero
  else false

/-- p is a PH_CLKHI phase (30_encoding.md R90): even, 2 ≤ p ≤ PHASES-2. -/
def isClkhiPhase (phases : Nat) (p : Phase) : Bool :=
  p.toNat % 2 == 0 && 2 ≤ p.toNat && p.toNat + 2 ≤ phases

/-- p is a PH_SAMPLE phase (30_encoding.md R90): odd, 3 ≤ p ≤ PHASES-3. -/
def isSamplePhase (phases : Nat) (p : Phase) : Bool :=
  p.toNat % 2 == 1 && 3 ≤ p.toNat && p.toNat + 3 ≤ phases

/-- Well-formedness of an instruction in a build with the given number of phases. -/
def Instr.wf (phases : Nat) : Instr → Bool
  | .illegal w => !isCommandWord w
  | .phClkhi p => isClkhiPhase phases p
  | .phSample p => isSamplePhase phases p
  | .start | .stop | .getheld | .getpressed | .ropen _ | .rclose _ | .risopen _ | .risclosed _ => true
  | .setv _ | .setd _ | .capture _ | .getstatus => true
  | .phLatch | .phUnlatch | .phPublish => true
  | .ttIdle | .ttCount | .ttMatch | .msIdle | .msCount => true
  | .seqEndPrep | .seqEndValve | .seqEndDelay | .seqEndRelease => true

end Sys2Proof
end

