-- ==== Sys2Proof/Decode.lean ====
section
/-! DEFINITION. Decoding and encoding. A host command is decoded from its word by the mask and match rows of
30_encoding.md R85 (R86, total: what no row matches is ILLEGAL). The micro-operations are selected by the block's own
registers (30_encoding.md R90, R91): decodePhase, ttickOp and mstickOp. After them the encoders, and the host's reading of
a table word. -/

namespace Sys2Proof

/-- A row of the table of 30_encoding.md R85 with the instruction its fields give. -/
structure Row where
  pat   : Word
  mask  : Word
  build : Word → Instr

/-- IDX, bits 26:24 (30_encoding.md R82). -/
def fieldIdx (w : Word) : BitVec 3 := w.extractLsb' 24 3

/-- IMM16, bits 15:0 (30_encoding.md R84). -/
def fieldImm16 (w : Word) : Half := w.extractLsb' 0 16

/-- REF, bit 27 (30_encoding.md R83). -/
def fieldRef (w : Word) : Ref := if w.getLsbD 27 then .fromClose else .fromOpen

/-- The rows of 30_encoding.md R85, in its order. -/
def rows : List Row :=
  [⟨0x10000000, 0xFFFFFFFF, fun _ => .start⟩,
   ⟨0x20000000, 0xFFFFFFFF, fun _ => .stop⟩,
   ⟨0x30000000, 0xFFFFFFFF, fun _ => .getheld⟩,
   ⟨0x40000000, 0xFFFFFFFF, fun _ => .getpressed⟩,
   ⟨0x50000000, 0xF8FFFFFF, fun w => .ropen (fieldIdx w)⟩,
   ⟨0x60000000, 0xF8FFFFFF, fun w => .rclose (fieldIdx w)⟩,
   ⟨0x70000000, 0xF8FFFFFF, fun w => .risopen (fieldIdx w)⟩,
   ⟨0x80000000, 0xF8FFFFFF, fun w => .risclosed (fieldIdx w)⟩,
   ⟨0x90000000, 0xFFFF0000, fun w => .setv (fieldImm16 w)⟩,
   ⟨0xA0000000, 0xFFFF0000, fun w => .setd (fieldImm16 w)⟩,
   ⟨0xB0000000, 0xF7FFFFFF, fun w => .capture (fieldRef w)⟩,
   ⟨0xC0000000, 0xFFFFFFFF, fun _ => .getstatus⟩]

/-- "A word matches a mnemonic when (word & mask) == match" (30_encoding.md R85). -/
def Row.hits (r : Row) (w : Word) : Bool := w &&& r.mask == r.pat

/-- decode(word) of 30_encoding.md R86. -/
def decodeCommand (w : Word) : Instr :=
  match rows.find? (fun r => r.hits w) with
  | some r => r.build w
  | none => .illegal w

/-- The phase operations a compare match dispatches to (30_encoding.md R90). -/
inductive PhaseOp where
  | latch
  | unlatch
  | clkhi (p : Phase)
  | sample (p : Phase)
  | publish
  deriving DecidableEq, Repr

/-- The row of the opcode table for a phase operation. -/
def PhaseOp.instr : PhaseOp → Instr
  | .latch => .phLatch
  | .unlatch => .phUnlatch
  | .clkhi p => .phClkhi p
  | .sample p => .phSample p
  | .publish => .phPublish

/-- The dispatch of 40_decoder.md R104, branch by branch (for p not below PHASES, which no run reaches, see log 11). -/
def phaseOp (phases : Nat) (p : Phase) : PhaseOp :=
  if p.toNat = 0 then .latch
  else if p.toNat = 1 then .unlatch
  else if p.toNat % 2 = 0 then .clkhi p
  else if p.toNat < phases - 1 then .sample p
  else .publish

/-- Why a PHASE value names no phase operation. -/
inductive PhaseReject where
  /-- PHASE is not below PHASES: 30_encoding.md R90 gives no class. -/
  | phaseOutOfRange
  deriving DecidableEq, Repr

/-- Why an MSTICK selects no micro-operation. -/
inductive MstickReject where
  /-- SEQ is 5, 6 or 7 (10_state.md R36, 93_implementation_defined.md I15). -/
  | seqUndefined
  /-- SEQ is a wait state and W = 0, against 43_sequencer.md R186's "W >= 1 here". -/
  | waitUnderflow
  deriving DecidableEq, Repr

/-- The micro-operation that a PHASE value names (30_encoding.md R90; the table's PHASE rows). -/
def decodePhase (phases : Nat) (p : Phase) : Except PhaseReject Instr :=
  if p.toNat < phases then .ok (phaseOp phases p).instr else .error .phaseOutOfRange

/-- The micro-operation a TTICK selects (30_encoding.md R91, 40_decoder.md R102): a match is
(TCNT + 1) mod 65536 == TCMP. -/
def ttickOp (active : Bool) (tcnt tcmp : Half) : Instr :=
  if !active then .ttIdle
  else if tcnt + 1 = tcmp then .ttMatch
  else .ttCount

/-- The micro-operation an MSTICK selects (30_encoding.md R91, 43_sequencer.md R186): "W reaches 0" is W = 1 before the
tick. SEQ 5 to 7 select nothing (log 9) and neither does a wait with W = 0 (log 10). -/
def mstickOp (seq : BitVec 3) (w : Half) : Except MstickReject Instr :=
  if seq.toNat = 0 then .ok .msIdle
  else if 5 ≤ seq.toNat then .error .seqUndefined
  else if w.toNat = 0 then .error .waitUnderflow
  else if 2 ≤ w.toNat then .ok .msCount
  else if seq.toNat = 1 then .ok .seqEndPrep
  else if seq.toNat = 2 then .ok .seqEndValve
  else if seq.toNat = 3 then .ok .seqEndDelay
  else .ok .seqEndRelease

/-- word = {OP[3:0], REF, IDX[2:0], 8'b0, IMM16[15:0]} (30_encoding.md R80). -/
def packCommand (op : BitVec 4) (ref : BitVec 1) (idx : BitVec 3) (imm : Half) : Word :=
  op ++ ref ++ idx ++ 0#8 ++ imm

/-- The command word of an instruction; a micro-operation has none (30_encoding.md R81, R85, R90). -/
def encodeCommand : Instr → Option Word
  | .start => some (packCommand 0x1 0 0 0)
  | .stop => some (packCommand 0x2 0 0 0)
  | .getheld => some (packCommand 0x3 0 0 0)
  | .getpressed => some (packCommand 0x4 0 0 0)
  | .ropen idx => some (packCommand 0x5 0 idx 0)
  | .rclose idx => some (packCommand 0x6 0 idx 0)
  | .risopen idx => some (packCommand 0x7 0 idx 0)
  | .risclosed idx => some (packCommand 0x8 0 idx 0)
  | .setv ms => some (packCommand 0x9 0 0 ms)
  | .setd ms => some (packCommand 0xA 0 0 ms)
  | .capture ref => some (packCommand 0xB (BitVec.ofBool ref.bit) 0 0)
  | .getstatus => some (packCommand 0xC 0 0 0)
  | .illegal w => some w
  | .phLatch | .phUnlatch | .phClkhi _ | .phSample _ | .phPublish => none
  | .ttIdle | .ttCount | .ttMatch | .msIdle | .msCount => none
  | .seqEndPrep | .seqEndValve | .seqEndDelay | .seqEndRelease => none

/-- The PHASE value of a decoder phase operation (30_encoding.md R90); the other instructions have none. -/
def encodePhase (phases : Nat) : Instr → Option Phase
  | .phLatch => some 0
  | .phUnlatch => some 1
  | .phClkhi p => some p
  | .phSample p => some p
  | .phPublish => some (BitVec.ofNat 5 (phases - 1))
  | .start | .stop | .getheld | .getpressed | .ropen _ | .rclose _ | .risopen _ | .risclosed _ => none
  | .setv _ | .setd _ | .capture _ | .getstatus | .illegal _ => none
  | .ttIdle | .ttCount | .ttMatch | .msIdle | .msCount => none
  | .seqEndPrep | .seqEndValve | .seqEndDelay | .seqEndRelease => none

/-- The instruction of a word as spec/opcode_table.json numbers it (log 15). A command row has 32 bits. A PHASE row has the
five bits of PHASE, in one byte, read in the 18-phase build (00_scope.md R8: NBITS = 8). The TTICK and MSTICK rows name
whole registers that overlap in the table's numbering, so no word spells one of them. -/
def decodeTableWord (nbits w : Nat) : Option Instr :=
  if nbits = 32 then some (decodeCommand (BitVec.ofNat 32 w))
  else if nbits = 8 ∧ w < 32 then (decodePhase Config.vectors.phases (BitVec.ofNat 5 w)).toOption
  else none

end Sys2Proof
end

