-- ==== Sys2Proof/Machine/State.lean ====
section
/-! DEFINITION. The block's state (10_state.md R20 to R42, R48), plain data, and reset (70_reset_and_hazards.md R250). -/

namespace Sys2Proof.Machine

/-- Why the machine stops. No reachable state stops (60_exceptions.md R225); both reasons are safe. -/
inductive Fault where
  /-- Raised by step for an MSTICK while SEQ is 5, 6 or 7 (93_implementation_defined.md I15: stuck). Safe (log 9). -/
  | seqUndefined
  /-- Raised by step for an MSTICK in a wait state with W = 0, where 43_sequencer.md R186 says "W >= 1 here". Safe (log 10). -/
  | waitUnderflow
  deriving DecidableEq, Repr

/-- Why the machine refuses. -/
inductive Refusal where
  /-- Raised by exec for an instruction without a meaning; none is left. Safe. -/
  | notModelled (mnemonic : String)
  /-- Raised by step under a configuration that 00_scope.md R9 does not admit. Safe (log 1). -/
  | badConfiguration
  deriving DecidableEq, Repr

/-- The output pins (60_exceptions.md R235). -/
inductive Pin where
  | latch
  | clk
  | rly (i : Nat)
  deriving DecidableEq, Repr

/-- One item of the observable output (20_memory.md R73): an event, a pin write with the level written, a response.
The pin writes and the response of an event come after it (log 6). -/
inductive Obs where
  | event (e : Event)
  | pin (p : Pin) (level : Bool)
  | response (v : Word)
  deriving DecidableEq, Repr

/-- The state of the block. -/
structure State where
  /-- The build's parameters (00_scope.md R8), the model's own field; no event writes it (log 1). -/
  cfg        : Config
  /-- ACTIVE (10_state.md R23). -/
  active     : Bool
  /-- PHASE (10_state.md R24). -/
  phase      : Phase
  /-- ACC (10_state.md R25). -/
  acc        : Half
  /-- KEYS (10_state.md R26). -/
  keys       : Half
  /-- NEWP (10_state.md R27). -/
  newp       : Half
  /-- READY (10_state.md R28). -/
  ready      : Bool
  /-- TCNT (10_state.md R29). -/
  tcnt       : Half
  /-- TCMP (10_state.md R30). -/
  tcmp       : Half
  /-- LATCH (10_state.md R31). -/
  latch      : Bool
  /-- CLK (10_state.md R32). -/
  clk        : Bool
  /-- The level of the DATA line at the event being taken (10_state.md R33), the model's own field (log 5). -/
  data       : Bool
  /-- RLY[i], i < NRELAYS (10_state.md R34). -/
  rly        : List Bool
  /-- SEQ: 0 IDLE, 1 PREP, 2 VALVE, 3 DELAY, 4 RELEASE (10_state.md R36). -/
  seq        : BitVec 3
  /-- W (10_state.md R37). -/
  w          : Half
  /-- CREF (10_state.md R38). -/
  cref       : Ref
  /-- VMS (10_state.md R39). -/
  vms        : Half
  /-- DMS (10_state.md R40). -/
  dms        : Half
  /-- DIAG_REINIT (10_state.md R41). -/
  diagReinit : Bool
  /-- DIAG_BADIDX (10_state.md R41). -/
  diagBadidx : Bool
  /-- DIAG_BADCMD (10_state.md R41). -/
  diagBadcmd : Bool
  /-- PEND (10_state.md R42). -/
  pend       : Bool
  /-- RSP (10_state.md R42). -/
  rsp        : Word
  /-- The trace of 20_memory.md R73, newest item first, the model's own field (log 6). -/
  trace      : List Obs
  /-- The events the environment will present, oldest first, the model's own field (log 3). -/
  inputs     : List Event
  /-- How many events have been taken, the model's own field (log 3). -/
  now        : Nat
  deriving DecidableEq, Repr

/-- Reset under configuration c (70_reset_and_hazards.md R250, 10_state.md R48): every element 0, every relay pin at its
open level INVERT[i] (R251). The model's own fields: no event taken or waiting, an empty trace, DATA low (log 3, 5, 6). -/
def State.resetFor (c : Config) : State where
  cfg := c
  active := false
  phase := 0
  acc := 0
  keys := 0
  newp := 0
  ready := false
  tcnt := 0
  tcmp := 0
  latch := false
  clk := false
  data := false
  rly := c.invert
  seq := 0
  w := 0
  cref := .fromOpen
  vms := 0
  dms := 0
  diagReinit := false
  diagBadidx := false
  diagBadcmd := false
  pend := false
  rsp := 0
  trace := []
  inputs := []
  now := 0

/-- The machine right after reset, under the configuration of 95_test_vectors.md (DESIGN CHOICE, log 2). -/
def State.reset : State := State.resetFor Config.vectors

end Sys2Proof.Machine
end

