-- ==== Sys2Proof/Machine/Ops.lean ====
section
/-! DEFINITION. The shared operations of 00_scope.md R12: writing a pin, responding, raising a diagnostic (the block's
one kind of exception, 60_exceptions.md R220; it transfers no control, so nothing returns from it, R230), the relay
primitives of 42_relay.md, and entering a wait (43_sequencer.md R185). -/

namespace Sys2Proof.Machine

/-- The three diagnostics (60_exceptions.md R221). -/
inductive Diag where
  | reinit
  | badidx
  | badcmd
  deriving DecidableEq, Repr

/-- The asserted level of CLK (00_scope.md R8, 10_state.md R32): 1. -/
def clkAsserted : Bool := true

/-- PinWrite(p, level) of 00_scope.md R12: the driven level, and the record of 20_memory.md R73. -/
def pinWrite (p : Pin) (level : Bool) (s : State) : State :=
  match p with
  | .latch => { s with latch := level, trace := .pin .latch level :: s.trace }
  | .clk => { s with clk := level, trace := .pin .clk level :: s.trace }
  | .rly i => { s with rly := s.rly.set i level, trace := .pin (.rly i) level :: s.trace }

/-- Respond(v) of 00_scope.md R12: RSP holds the response of the last completed command (10_state.md R42). -/
def respond (v : Word) (s : State) : State :=
  { s with rsp := v, trace := .response v :: s.trace }

/-- raise Diag(X) of 60_exceptions.md R220: the sticky bit is set and the rule goes on. -/
def raiseDiag (d : Diag) (s : State) : State :=
  match d with
  | .reinit => { s with diagReinit := true }
  | .badidx => { s with diagBadidx := true }
  | .badcmd => { s with diagBadcmd := true }

/-- INVERT[j] (10_state.md R35). -/
def invertAt (c : Config) (j : Nat) : Bool := c.invert.getD j false

/-- The level relay j's pin is driven to, read back (10_state.md R34). -/
def relayPin (s : State) (j : Nat) : Bool := s.rly.getD j false

/-- RelayOpen(j) of 42_relay.md R160. -/
def relayOpen (j : Nat) (s : State) : State := pinWrite (.rly j) (invertAt s.cfg j) s

/-- RelayClose(j) of 42_relay.md R161. -/
def relayClose (j : Nat) (s : State) : State := pinWrite (.rly j) (!invertAt s.cfg j) s

/-- IsOpen(j) of 42_relay.md R162. -/
def isOpen (s : State) (j : Nat) : Bool := relayPin s j == invertAt s.cfg j

/-- IsClosed(j) of 42_relay.md R162. -/
def isClosed (s : State) (j : Nat) : Bool := relayPin s j != invertAt s.cfg j

/-- The codes of SEQ (10_state.md R36). -/
def seqIdle : BitVec 3 := 0
def seqPrep : BitVec 3 := 1
def seqValve : BitVec 3 := 2
def seqDelay : BitVec 3 := 3
def seqRelease : BitVec 3 := 4

/-- EnterWait(q, n) of 43_sequencer.md R185, with the Complete(q) that ends the wait: a wait of 0 ends at once. -/
def enterWait (q : BitVec 3) (n : Half) (complete : State → State) (s : State) : State :=
  let waiting := { s with seq := q, w := n }
  if n = 0 then complete waiting else waiting

end Sys2Proof.Machine
end

