-- ==== Sys2Proof/Machine/Flags.lean ====
section
/-! DEFINITION. The status flags (10_state.md R46): BUSY, and the STATUS word that GETSTATUS returns (10_state.md R47,
44_status.md R210). The block has no arithmetic condition code. -/

namespace Sys2Proof.Machine

/-- BUSY = (SEQ ≠ IDLE), computed and never stored (10_state.md R43). -/
def busy (s : State) : Bool := s.seq != seqIdle

/-- zext_32 of a flag. -/
def flag (b : Bool) : Word := if b then 1 else 0

/-- The STATUS word (44_status.md R210, layout of 10_state.md R47). -/
def statusWord (s : State) : Word :=
  flag s.active
    ||| flag s.ready <<< 1
    ||| flag (busy s) <<< 2
    ||| flag s.diagReinit <<< 8
    ||| flag s.diagBadidx <<< 9
    ||| flag s.diagBadcmd <<< 10
    ||| flag (s.cfg.nbits == 12) <<< 16
    ||| BitVec.ofNat 32 (s.cfg.nrelays - 1) <<< 20

/-- The three diagnostics are cleared (44_status.md R210, 10_state.md R41). -/
def clearDiags (s : State) : State :=
  { s with diagReinit := false, diagBadidx := false, diagBadcmd := false }

end Sys2Proof.Machine
end

