-- ==== Sys2Proof/Machine/Operands.lean ====
section
/-! DEFINITION. The operands: the relay index of a command (42_relay.md R163), the durations and the saturating delay of
a capture (00_scope.md R11, 43_sequencer.md R191), the compare period (00_scope.md R11, 40_decoder.md R103) and the
sampled bit (40_decoder.md R108). -/

namespace Sys2Proof.Machine

/-- Resolve(idx) of 42_relay.md R163: the relay a command acts on, and the state after the diagnostic. -/
def resolve (idx : BitVec 3) (s : State) : Nat × State :=
  if idx.toNat < s.cfg.nrelays then (idx.toNat, s) else (0, raiseDiag .badidx s)

/-- a ∸ b of 00_scope.md R11 on 16-bit values. -/
def satSub (a b : Half) : Half := if b.toNat ≤ a.toNat then a - b else 0

/-- EffDelay(ref, d, v) of 43_sequencer.md R191. -/
def effDelay (ref : Ref) (d v : Half) : Half :=
  match ref with
  | .fromOpen => satSub d v
  | .fromClose => d

/-- per(c) of 00_scope.md R11: the number of ticks of a compare interval. -/
def per (c : Half) : Nat := if c = 0 then 65536 else c.toNat

/-- (TCNT + 1) mod 65536 (40_decoder.md R102). -/
def tickCount (n : Half) : Half := n + 1

/-- The bit position sampled at phase p: (p - 3) / 2 (40_decoder.md R108). -/
def samplePosition (p : Phase) : Nat := (p.toNat - 3) / 2

/-- zext_16(1 - b) << k: the sample, inverted, since a pressed button reads 0 (40_decoder.md R108). -/
def sampleBit (data : Bool) (k : Nat) : Half := (if data then 0#16 else 1#16) <<< k

end Sys2Proof.Machine
end

