-- ==== Sys2Proof/Machine/Decoder.lean ====
section
/-! DEFINITION. The protocol timer and bit decoder (40_decoder.md): START, STOP, the timer tick's three
micro-operations and the five phase micro-operations. -/

namespace Sys2Proof.Machine

/-- A meaning that always has a next state. -/
abbrev Result := Host.Outcome State Fault Refusal

/-- What START initialises (40_decoder.md R100). LATCH and CLK keep their levels. -/
def initDecoder (s : State) : State :=
  { s with
    phase := 0, acc := 0, keys := 0, newp := 0, ready := false
    tcnt := 0, tcmp := s.cfg.tPoll
    active := true }

/-- START (40_decoder.md R100). -/
def execStart (s : State) : Result :=
  .next (respond 0 (if s.active then raiseDiag .reinit s else initDecoder s))

/-- STOP (40_decoder.md R101). -/
def execStop (s : State) : Result :=
  .next (respond 0 { s with active := false })

/-- PH_LATCH (40_decoder.md R105). -/
def latchPhase (s : State) : State :=
  { pinWrite .latch true s with acc := 0 }

/-- PH_UNLATCH (40_decoder.md R106). -/
def unlatchPhase (s : State) : State := pinWrite .latch false s

/-- PH_CLKHI (40_decoder.md R107). -/
def clkhiPhase (s : State) : State := pinWrite .clk clkAsserted s

/-- The sample of bit k and the deassertion of the clock (40_decoder.md R108, R109). -/
def sampleInto (k : Nat) (s : State) : State :=
  pinWrite .clk (!clkAsserted) { s with acc := s.acc ||| sampleBit s.data k }

/-- The publication and the edge detector (40_decoder.md R109): the reference is the KEYS published before. -/
def publish (s : State) : State :=
  { s with keys := s.acc, ready := true, newp := s.newp ||| (s.acc &&& ~~~s.keys) }

/-- PH_LATCH (40_decoder.md R105). -/
def execPhLatch (s : State) : Result := .next (latchPhase s)

/-- PH_UNLATCH (40_decoder.md R106). -/
def execPhUnlatch (s : State) : Result := .next (unlatchPhase s)

/-- PH_CLKHI at phase p (40_decoder.md R107); its action does not depend on p. -/
def execPhClkhi (_p : Phase) (s : State) : Result := .next (clkhiPhase s)

/-- PH_SAMPLE(p) (40_decoder.md R108). -/
def execPhSample (p : Phase) (s : State) : Result := .next (sampleInto (samplePosition p) s)

/-- The state after PH_PUBLISH (40_decoder.md R109). -/
def publishPhase (s : State) : State := publish (sampleInto (s.cfg.nbits - 1) s)

/-- PH_PUBLISH (40_decoder.md R109). -/
def execPhPublish (s : State) : Result := .next (publishPhase s)

/-- The phase action that CompareMatch dispatches to (40_decoder.md R104). -/
def phaseAction (op : PhaseOp) (s : State) : State :=
  match op with
  | .latch => latchPhase s
  | .unlatch => unlatchPhase s
  | .clkhi _ => clkhiPhase s
  | .sample p => sampleInto (samplePosition p) s
  | .publish => publishPhase s

/-- PHASE <- (p + 1) mod PHASES (40_decoder.md R104). -/
def nextPhase (c : Config) (p : Phase) : Phase := BitVec.ofNat 5 ((p.toNat + 1) % c.phases)

/-- ReArm (40_decoder.md R110). -/
def reArm (s : State) : State :=
  if s.phase = 0 then { s with tcmp := s.cfg.tPoll }
  else if s.phase = 1 then { s with tcmp := s.cfg.tBit }
  else s

/-- CompareMatch (40_decoder.md R104): the phase action, the advance, the re-arm. -/
def compareMatch (s : State) : State :=
  let acted := phaseAction (phaseOp s.cfg.phases s.phase) s
  reArm { acted with phase := nextPhase s.cfg s.phase }

/-- TT_IDLE (40_decoder.md R102): a TTICK while ACTIVE = 0 changes nothing. -/
def execTtIdle (s : State) : Result := .next s

/-- TT_COUNT (40_decoder.md R102). -/
def execTtCount (s : State) : Result := .next { s with tcnt := tickCount s.tcnt }

/-- TT_MATCH (40_decoder.md R102, R104): the count is cleared and CompareMatch runs in the same event (log 7). -/
def execTtMatch (s : State) : Result := .next (compareMatch { s with tcnt := 0 })

end Sys2Proof.Machine
end

