-- ==== Sys2Proof/Machine/KeyAccess.lean ====
section
/-! DEFINITION. The key state accessor (41_key_access.md): GETHELD and GETPRESSED. -/

namespace Sys2Proof.Machine

/-- GETHELD (41_key_access.md R140). -/
def execGetheld (s : State) : Result := .next (respond (s.keys.setWidth 32) s)

/-- GETPRESSED (41_key_access.md R141): the read and the clear are one event. -/
def execGetpressed (s : State) : Result :=
  .next (respond (s.newp.setWidth 32) { s with newp := 0 })

end Sys2Proof.Machine
end

