-- ==== Sys2Proof/Machine/Relay.lean ====
section
/-! DEFINITION. The relay commands (42_relay.md R164 to R167). -/

namespace Sys2Proof.Machine

/-- ROPEN i (42_relay.md R164). -/
def execRopen (idx : BitVec 3) (s : State) : Result :=
  let (j, s1) := resolve idx s
  .next (respond 0 (relayOpen j s1))

/-- RCLOSE i (42_relay.md R165). -/
def execRclose (idx : BitVec 3) (s : State) : Result :=
  let (j, s1) := resolve idx s
  .next (respond 0 (relayClose j s1))

/-- RISOPEN i (42_relay.md R166). -/
def execRisopen (idx : BitVec 3) (s : State) : Result :=
  let (j, s1) := resolve idx s
  .next (respond (flag (isOpen s1 j)) s1)

/-- RISCLOSED i (42_relay.md R167). -/
def execRisclosed (idx : BitVec 3) (s : State) : Result :=
  let (j, s1) := resolve idx s
  .next (respond (flag (isClosed s1 j)) s1)

end Sys2Proof.Machine
end

