-- ==== Sys2Proof/Machine/Sequencer.lean ====
section
/-! DEFINITION. The synchronized capture sequencer (43_sequencer.md). Complete(q) enters the next wait, which may complete
at once; the four completions are written last first, so that each names the next. -/

namespace Sys2Proof.Machine

/-- SETV ms (43_sequencer.md R180). -/
def execSetv (ms : Half) (s : State) : Result := .next (respond 0 { s with vms := ms })

/-- SETD ms (43_sequencer.md R181). -/
def execSetd (ms : Half) (s : State) : Result := .next (respond 0 { s with dms := ms })

/-- Complete(RELEASE) (43_sequencer.md R190): release opens first, then cue, and the CAPTURE command responds. -/
def completeRelease (s : State) : State :=
  let opened := relayOpen s.cfg.cueIdx (relayOpen s.cfg.relIdx s)
  respond 0 { opened with seq := seqIdle, pend := false }

/-- Complete(DELAY) (43_sequencer.md R189). -/
def completeDelay (s : State) : State :=
  enterWait seqRelease s.cfg.tRelMs completeRelease (relayClose s.cfg.relIdx s)

/-- Complete(VALVE) (43_sequencer.md R188). -/
def completeValve (s : State) : State :=
  enterWait seqDelay (effDelay s.cref s.dms s.vms) completeDelay (relayOpen s.cfg.valveIdx s)

/-- Complete(PREP) (43_sequencer.md R187). -/
def completePrep (s : State) : State :=
  enterWait seqValve s.vms completeValve (relayClose s.cfg.valveIdx s)

/-- CAPTURE ref (43_sequencer.md R183): the response comes from Complete(RELEASE). -/
def execCapture (ref : Ref) (s : State) : Result :=
  .next (enterWait seqPrep s.cfg.tPrepMs completePrep
    (relayClose s.cfg.cueIdx { s with pend := true, cref := ref }))

/-- MS_IDLE (43_sequencer.md R186). -/
def execMsIdle (s : State) : Result := .next s

/-- MS_COUNT (43_sequencer.md R186). -/
def execMsCount (s : State) : Result := .next { s with w := s.w - 1 }

/-- W has reached 0 (43_sequencer.md R186; 30_encoding.md R91 "W reaches 0 (or is loaded 0)"; log 8). -/
def expired (s : State) : State := { s with w := 0 }

/-- SEQ_END_PREP (43_sequencer.md R187). -/
def execSeqEndPrep (s : State) : Result := .next (completePrep (expired s))

/-- SEQ_END_VALVE (43_sequencer.md R188). -/
def execSeqEndValve (s : State) : Result := .next (completeValve (expired s))

/-- SEQ_END_DELAY (43_sequencer.md R189). -/
def execSeqEndDelay (s : State) : Result := .next (completeDelay (expired s))

/-- SEQ_END_RELEASE (43_sequencer.md R190). -/
def execSeqEndRelease (s : State) : Result := .next (completeRelease (expired s))

end Sys2Proof.Machine
end

