-- ==== Sys2Proof/Machine/Status.lean ====
section
/-! DEFINITION. GETSTATUS and ILLEGAL (44_status.md). -/

namespace Sys2Proof.Machine

/-- GETSTATUS (44_status.md R210): the read and the clear of the diagnostics are one event. -/
def execGetstatus (s : State) : Result := .next (respond (statusWord s) (clearDiags s))

/-- ILLEGAL (44_status.md R211), whatever the word. -/
def execIllegal (_word : Word) (s : State) : Result := .next (respond 0 (raiseDiag .badcmd s))

end Sys2Proof.Machine
end

