-- ==== Sys2Proof/Machine/Dispatch.lean ====
section
/-! DEFINITION. exec: one arm per constructor of Instr, each one call of its meaning. -/

namespace Sys2Proof.Machine

def exec (i : Instr) (s : State) : Host.Outcome State Fault Refusal :=
  match i with
  | .start => Sys2Proof.Machine.execStart s
  | .stop => Sys2Proof.Machine.execStop s
  | .getheld => Sys2Proof.Machine.execGetheld s
  | .getpressed => Sys2Proof.Machine.execGetpressed s
  | .ropen idx => Sys2Proof.Machine.execRopen idx s
  | .rclose idx => Sys2Proof.Machine.execRclose idx s
  | .risopen idx => Sys2Proof.Machine.execRisopen idx s
  | .risclosed idx => Sys2Proof.Machine.execRisclosed idx s
  | .setv ms => Sys2Proof.Machine.execSetv ms s
  | .setd ms => Sys2Proof.Machine.execSetd ms s
  | .capture ref => Sys2Proof.Machine.execCapture ref s
  | .getstatus => Sys2Proof.Machine.execGetstatus s
  | .illegal word => Sys2Proof.Machine.execIllegal word s
  -- decoder phases, 30_encoding.md R90
  | .phLatch => Sys2Proof.Machine.execPhLatch s
  | .phUnlatch => Sys2Proof.Machine.execPhUnlatch s
  | .phClkhi p => Sys2Proof.Machine.execPhClkhi p s
  | .phSample p => Sys2Proof.Machine.execPhSample p s
  | .phPublish => Sys2Proof.Machine.execPhPublish s
  -- timer and sequencer, 30_encoding.md R91
  | .ttIdle => Sys2Proof.Machine.execTtIdle s
  | .ttCount => Sys2Proof.Machine.execTtCount s
  | .ttMatch => Sys2Proof.Machine.execTtMatch s
  | .msIdle => Sys2Proof.Machine.execMsIdle s
  | .msCount => Sys2Proof.Machine.execMsCount s
  | .seqEndPrep => Sys2Proof.Machine.execSeqEndPrep s
  | .seqEndValve => Sys2Proof.Machine.execSeqEndValve s
  | .seqEndDelay => Sys2Proof.Machine.execSeqEndDelay s
  | .seqEndRelease => Sys2Proof.Machine.execSeqEndRelease s

end Sys2Proof.Machine
end

