-- ==== Sys2Proof/Machine/Fetch.lean ====
section
/-! DEFINITION. Which event a step takes, and the instruction the event selects. The order of events is open
(20_memory.md R67) but for the host hold: while PEND = 1 the host has no HOST event (43_sequencer.md R182). -/

namespace Sys2Proof.Machine

/-- The first event of the list the environment may present, and the list without it. While the host is held its commands
wait in place and the first tick goes ahead of them (log 4). -/
def takeInput (held : Bool) : List Event → Option (Event × List Event)
  | [] => none
  | .tick t :: rest => some (.tick t, rest)
  | .host c :: rest =>
    match held with
    | false => some (.host c, rest)
    | true => (takeInput true rest).map (fun (e, left) => (e, .host c :: left))

/-- The event a step takes and the inputs left: a free value where the environment's list names none (log 3). -/
def nextEvent (s : State) : Event × List Event :=
  match takeInput s.pend s.inputs with
  | some taken => taken
  | none => (if s.pend then .tick (Config.freeTick s.now) else Config.freeEvent s.now, s.inputs)

/-- The DATA level an event brings (10_state.md R33): only a TTICK has one. -/
def dataAt (e : Event) (s : State) : Bool :=
  match e with
  | .tick (.timer b) => b
  | .tick .ms => s.data
  | .host _ => s.data

/-- The state in which an event's instruction runs: the event is taken off the inputs, counted, and recorded
(20_memory.md R73), and the DATA line has its level. No element of 10_state.md R48 changes. -/
def arrive (e : Event) (left : List Event) (s : State) : State :=
  { s with inputs := left, now := s.now + 1, data := dataAt e s, trace := .event e :: s.trace }

/-- The instruction an event selects: a HOST event by its word (30_encoding.md R86), a TTICK and an MSTICK by the
block's registers (30_encoding.md R91). -/
def select (e : Event) (s : State) : Except MstickReject Instr :=
  match e with
  | .host c => .ok (decodeCommand c)
  | .tick (.timer _) => .ok (ttickOp s.active s.tcnt s.tcmp)
  | .tick .ms => mstickOp s.seq s.w

/-- The fault of an MSTICK that selects no micro-operation (log 9, log 10). -/
def faultOf : MstickReject → Fault
  | .seqUndefined => .seqUndefined
  | .waitUnderflow => .waitUnderflow

/-- The host presents word c next, and may: it is not held (log 15). -/
def presentCommand (c : Word) (s : State) : State :=
  { s with pend := false, inputs := .host c :: s.inputs }

/-- The timer is about to match at PHASE p: the next TTICK, with the DATA line as it stands, is a TT_MATCH (log 15). -/
def presentPhase (p : Phase) (s : State) : State :=
  { s with active := true, phase := p, tcnt := s.tcmp - 1, inputs := .ttick s.data :: s.inputs }

end Sys2Proof.Machine
end

