-- ==== Sys2Proof/Machine/Step.lean ====
section
/-! DEFINITION. One step is one event (00_scope.md R13): the event is taken, and the instruction it selects runs. -/

namespace Sys2Proof.Machine

/-- The event e in a state it has arrived in: the instruction it selects, or the stop of log 9 and log 10. -/
def runEvent (e : Event) (s : State) : Host.Outcome State Fault Refusal :=
  match select e s with
  | .ok i => exec i s
  | .error r => .fault (faultOf r)

/-- One step. A configuration that 00_scope.md R9 does not admit is refused. -/
def step (s : State) : Host.Outcome State Fault Refusal :=
  if s.cfg.wf then runEvent (nextEvent s).1 (arrive (nextEvent s).1 (nextEvent s).2 s)
  else .refused .badConfiguration

/-- The state whose next step runs the instruction of a table word (log 15): a 32-bit word is the host's next command, an
8-bit word is the PHASE of the next compare match. A word of another width spells no row and changes nothing. -/
def State.withFetchWord (s : State) (nbits w : Nat) : State :=
  if nbits = 32 then presentCommand (BitVec.ofNat 32 w) s
  else if nbits = 8 ∧ w < 32 then presentPhase (BitVec.ofNat 5 w) s
  else s

end Sys2Proof.Machine
end

