-- ==== Sys2Proof/Machine/Assembler.lean ====
section
/-! DEFINITION. The assembly notation of 30_encoding.md R92 and the pseudo-instructions of R93, as the host uses them: a
line of text gives the host's steps or is refused. Spaces around a mnemonic or an operand do not count (log 19). -/

namespace Sys2Proof.Machine

/-- What the host does for one line: issue a word, or choose the word by the response it got last (R93, RTOGGLE). -/
inductive HostStep where
  | issue (w : Word)
  | byResponse (ifOne otherwise : Word)
  deriving DecidableEq, Repr

/-- The word the host issues, given the last response. -/
def HostStep.word (response : Word) : HostStep → Word
  | .issue w => w
  | .byResponse ifOne otherwise => if response = 1 then ifOne else otherwise

/-- A space of the notation. -/
def isBlank (c : Char) : Bool := c == ' ' || c == '\t'

/-- Blanks at both ends removed. -/
def trim (cs : List Char) : List Char :=
  ((cs.dropWhile isBlank).reverse.dropWhile isBlank).reverse

/-- The value of a digit in a base up to 16. -/
def digit (base : Nat) (c : Char) : Option Nat :=
  let n := c.toNat
  let v := if 48 ≤ n ∧ n ≤ 57 then n - 48
    else if 65 ≤ n ∧ n ≤ 70 then n - 55
    else if 97 ≤ n ∧ n ≤ 102 then n - 87
    else 16
  if v < base then some v else none

/-- The value of a string of digits. -/
def digits (base : Nat) : Nat → List Char → Option Nat
  | acc, [] => some acc
  | acc, c :: cs => (digit base c).bind (fun v => digits base (acc * base + v) cs)

/-- A number: decimal, or hexadecimal after 0x (30_encoding.md R92). -/
def number : List Char → Option Nat
  | [] => none
  | ['0', 'x'] => none
  | '0' :: 'x' :: cs => digits 16 0 cs
  | cs => digits 10 0 cs

/-- A number below a bound: "an assembler refuses an operand out of its range" (30_encoding.md R92). -/
def numberBelow (bound : Nat) (cs : List Char) : Option Nat :=
  (number cs).bind (fun n => if n < bound then some n else none)

/-- The operands, separated by commas; none where nothing follows the mnemonic. -/
def operands (cs : List Char) : List (List Char) :=
  if trim cs = [] then [] else (cs.splitOn ',').map trim

/-- A relay index, 0..7. -/
def relayOperand (cs : List Char) : Option (BitVec 3) := (numberBelow 8 cs).map (BitVec.ofNat 3)

/-- A duration in milliseconds, 0..65535. -/
def msOperand (cs : List Char) : Option Half := (numberBelow 65536 cs).map (BitVec.ofNat 16)

/-- from_open or from_close. -/
def refOperand (cs : List Char) : Option Ref :=
  if cs = "from_open".toList then some .fromOpen
  else if cs = "from_close".toList then some .fromClose
  else none

/-- The step that issues an instruction's command word. -/
def issueOf (i : Instr) : Option HostStep := (encodeCommand i).map HostStep.issue

/-- The steps that issue several instructions in order. -/
def issueAll (is : List Instr) : Option (List HostStep) := is.mapM issueOf

/-- CAPT v, d, ref of 30_encoding.md R93. -/
def expandCapt (v d : Half) (ref : Ref) : Option (List HostStep) :=
  issueAll [.setv v, .setd d, .capture ref]

/-- RTOGGLE i of 30_encoding.md R93: RISOPEN i, then RCLOSE i if the response was 1, else ROPEN i. -/
def expandRtoggle (i : BitVec 3) : Option (List HostStep) :=
  match encodeCommand (.risopen i), encodeCommand (.rclose i), encodeCommand (.ropen i) with
  | some q, some c, some o => some [.issue q, .byResponse c o]
  | _, _, _ => none

/-- A mnemonic with its operands (30_encoding.md R92, R93). -/
def assembleOp (mnemonic : List Char) (ops : List (List Char)) : Option (List HostStep) :=
  match ops with
  | [] =>
    if mnemonic = [] then some []
    else if mnemonic = "START".toList then issueAll [.start]
    else if mnemonic = "STOP".toList then issueAll [.stop]
    else if mnemonic = "GETHELD".toList then issueAll [.getheld]
    else if mnemonic = "GETPRESSED".toList then issueAll [.getpressed]
    else if mnemonic = "GETSTATUS".toList then issueAll [.getstatus]
    else none
  | [x] =>
    if mnemonic = "ROPEN".toList then (relayOperand x).bind (fun i => issueAll [.ropen i])
    else if mnemonic = "RCLOSE".toList then (relayOperand x).bind (fun i => issueAll [.rclose i])
    else if mnemonic = "RISOPEN".toList then (relayOperand x).bind (fun i => issueAll [.risopen i])
    else if mnemonic = "RISCLOSED".toList then (relayOperand x).bind (fun i => issueAll [.risclosed i])
    else if mnemonic = "SETV".toList then (msOperand x).bind (fun m => issueAll [.setv m])
    else if mnemonic = "SETD".toList then (msOperand x).bind (fun m => issueAll [.setd m])
    else if mnemonic = "CAPTURE".toList then (refOperand x).bind (fun r => issueAll [.capture r])
    else if mnemonic = ".word".toList then
      (numberBelow (2 ^ 32) x).map (fun n => [.issue (BitVec.ofNat 32 n)])
    else if mnemonic = "RTOGGLE".toList then (relayOperand x).bind expandRtoggle
    else none
  | [x, y, z] =>
    if mnemonic = "CAPT".toList then
      (msOperand x).bind (fun v => (msOperand y).bind (fun d => (refOperand z).bind (expandCapt v d)))
    else none
  | _ => none

/-- One line: a comment runs from ';' to the end, the mnemonic to the first blank (30_encoding.md R92). -/
def assembleLine (line : List Char) : Option (List HostStep) :=
  let code := trim (line.takeWhile (· != ';'))
  assembleOp (code.takeWhile (!isBlank ·)) (operands (code.dropWhile (!isBlank ·)))

end Sys2Proof.Machine
end

