-- ==== Sys2Proof/Machine/KeyState.lean ====
section
/-! DEFINITION. The KeyState view that the host applies to a response of GETHELD or GETPRESSED (41_key_access.md R142 to
R145; 30_encoding.md R94: functions, no commands). -/

namespace Sys2Proof.Machine

/-- The buttons of 41_key_access.md R143. -/
inductive Button where
  | a | b | select | start | up | down | left | right | x | y | l | r
  deriving DecidableEq, Repr

/-- bit(N): the bit position of a button (41_key_access.md R143). -/
def Button.bit : Button → Nat
  | .a => 0
  | .b => 1
  | .select => 2
  | .start => 3
  | .up => 4
  | .down => 5
  | .left => 6
  | .right => 7
  | .x => 8
  | .y => 9
  | .l => 10
  | .r => 11

/-- The KeyState of a response: response[15:0] (41_key_access.md R142). -/
def keyState (response : Word) : Half := response.extractLsb' 0 16

/-- key_N(ks) (41_key_access.md R144). -/
def key (n : Button) (ks : Half) : Bool := ks.getLsbD n.bit

/-- any(ks) (41_key_access.md R145). -/
def anyPressed (nbits : Nat) (ks : Half) : Bool := ks.extractLsb' 0 nbits != 0

end Sys2Proof.Machine
end

