-- ==== Sys2Proof/Machine/Observe.lean ====
section
/-! DEFINITION. What an instruction makes observable (20_memory.md R73): its pin writes, a write of the standing level
included, and its response, in the order its rule lists them (oldest first). The lists are written from the rules of the
instructions, not from their meanings, so that the two can be held against each other. -/

namespace Sys2Proof.Machine

/-- The write of RelayOpen(j) (42_relay.md R160). -/
def openItem (c : Config) (j : Nat) : Obs := .pin (.rly j) (invertAt c j)

/-- The write of RelayClose(j) (42_relay.md R161). -/
def closeItem (c : Config) (j : Nat) : Obs := .pin (.rly j) (!invertAt c j)

/-- Complete(RELEASE): release, cue, response (43_sequencer.md R190). -/
def releaseItems (c : Config) : List Obs := [openItem c c.relIdx, openItem c c.cueIdx, .response 0]

/-- Complete(DELAY) and, where its wait is 0, the next completion (43_sequencer.md R189, R185). -/
def delayItems (c : Config) : List Obs :=
  closeItem c c.relIdx :: (if c.tRelMs = 0 then releaseItems c else [])

/-- Complete(VALVE) with effective delay e, likewise (43_sequencer.md R188, R185). -/
def valveItems (c : Config) (e : Half) : List Obs :=
  openItem c c.valveIdx :: (if e = 0 then delayItems c else [])

/-- Complete(PREP) with valve-open duration v and effective delay e, likewise (43_sequencer.md R187, R185). -/
def prepItems (c : Config) (v e : Half) : List Obs :=
  closeItem c c.valveIdx :: (if v = 0 then valveItems c e else [])

/-- CAPTURE, likewise (43_sequencer.md R183, R185). -/
def captureItems (c : Config) (v e : Half) : List Obs :=
  closeItem c c.cueIdx :: (if c.tPrepMs = 0 then prepItems c v e else [])

/-- The write of a phase operation (40_decoder.md R105 to R109). -/
def phaseItems : PhaseOp → List Obs
  | .latch => [.pin .latch true]
  | .unlatch => [.pin .latch false]
  | .clkhi _ => [.pin .clk true]
  | .sample _ => [.pin .clk false]
  | .publish => [.pin .clk false]

/-- What an instruction makes observable in a state, oldest first (20_memory.md R73; 30_encoding.md R89 for the responses). -/
def itemsOf (i : Instr) (s : State) : List Obs :=
  match i with
  | .start | .stop | .setv _ | .setd _ | .illegal _ => [.response 0]
  | .getheld => [.response (s.keys.setWidth 32)]
  | .getpressed => [.response (s.newp.setWidth 32)]
  | .ropen idx => [openItem s.cfg (resolve idx s).1, .response 0]
  | .rclose idx => [closeItem s.cfg (resolve idx s).1, .response 0]
  | .risopen idx => [.response (flag (isOpen s (resolve idx s).1))]
  | .risclosed idx => [.response (flag (isClosed s (resolve idx s).1))]
  | .getstatus => [.response (statusWord s)]
  | .capture ref => captureItems s.cfg s.vms (effDelay ref s.dms s.vms)
  | .phLatch => phaseItems .latch
  | .phUnlatch => phaseItems .unlatch
  | .phClkhi p => phaseItems (.clkhi p)
  | .phSample p => phaseItems (.sample p)
  | .phPublish => phaseItems .publish
  | .ttMatch => phaseItems (phaseOp s.cfg.phases s.phase)
  | .ttIdle | .ttCount | .msIdle | .msCount => []
  | .seqEndPrep => prepItems s.cfg s.vms (effDelay s.cref s.dms s.vms)
  | .seqEndValve => valveItems s.cfg (effDelay s.cref s.dms s.vms)
  | .seqEndDelay => delayItems s.cfg
  | .seqEndRelease => releaseItems s.cfg

end Sys2Proof.Machine
end

