-- ==== Sys2Proof/Safety.lean ====
section
/-! DEFINITION. What counts as a sound state and a run, in the terms the statements use: the invariants of 10_state.md R43
and R45, the agreement of the pins with the trace (20_memory.md R73), and runs over a list of events. -/

namespace Sys2Proof.Machine

/-- The invariants of every reachable state (10_state.md R43, R45), with the configuration of 00_scope.md R9, the number
of relays (10_state.md R34), the count below the period (40_decoder.md R103) and the wait that never underflows
(43_sequencer.md R186). -/
structure StateInv (s : State) : Prop where
  cfgWf     : s.cfg.wf = true
  relays    : s.rly.length = s.cfg.nrelays
  phaseLt   : s.phase.toNat < s.cfg.phases
  accBits   : s.acc.toNat < 2 ^ s.cfg.nbits
  keysBits  : s.keys.toNat < 2 ^ s.cfg.nbits
  newpBits  : s.newp.toNat < 2 ^ s.cfg.nbits
  seqLe     : s.seq.toNat ≤ 4
  pendBusy  : s.pend = busy s
  armed     : s.active = true → s.tcmp = if s.phase = 0 then s.cfg.tPoll else s.cfg.tBit
  counting  : s.active = true → s.tcnt.toNat < per s.tcmp
  waiting   : s.seq ≠ seqIdle → 1 ≤ s.w.toNat
  idleWait  : s.seq = seqIdle → s.w = 0

/-- The level of the last write to a pin that the trace (newest first) records, or the given level where it records none. -/
def lastWritten (p : Pin) (initial : Bool) : List Obs → Bool
  | [] => initial
  | .pin q level :: rest => if q = p then level else lastWritten p initial rest
  | .event _ :: rest => lastWritten p initial rest
  | .response _ :: rest => lastWritten p initial rest

/-- Every output pin has the level of its last recorded write, or its level at reset (20_memory.md R73, 60_exceptions.md R235). -/
structure PinsAgree (s : State) : Prop where
  latch : s.latch = lastWritten .latch false s.trace
  clk   : s.clk = lastWritten .clk false s.trace
  rly   : ∀ j, j < s.rly.length → relayPin s j = lastWritten (.rly j) (invertAt s.cfg j) s.trace

/-- The run that takes exactly the given events, if none of them is held back. -/
def runEvents (evs : List Event) (s : State) : Host.Outcome State Fault Refusal :=
  Sys2Proof.core.run evs.length { s with inputs := evs }

/-- n TTICKs; the DATA line has level d k at the k-th of them, k = 1, ..., n. -/
def tticks (n : Nat) (d : Nat → Bool) : List Event :=
  (List.range n).map (fun k => Event.ttick (d (k + 1)))

/-- n MSTICKs. -/
def msticks (n : Nat) : List Event := List.replicate n Event.mstick

end Sys2Proof.Machine
end

