-- ==== Sys2Proof/Certificates/Slice0/Obligations.lean ====
section
/-! DEFINITION. The statements for the provers. Where an equation gives the whole next state, every field it does not name is
unchanged: it is the result, the frame and the completion of the instruction in one. -/

open Sys2Proof Sys2Proof.Machine

/-! ### Encoding -/

/-- Words written out from 30_encoding.md R85 and R92 decode to the instructions they stand for. -/
def Obligations.CommandWordsDecodeAsWritten : Prop :=
  decodeCommand 0x10000000 = .start ∧ decodeCommand 0x20000000 = .stop ∧
  decodeCommand 0x30000000 = .getheld ∧ decodeCommand 0x40000000 = .getpressed ∧
  decodeCommand 0x52000000 = .ropen 2 ∧ decodeCommand 0x67000000 = .rclose 7 ∧
  decodeCommand 0x70000000 = .risopen 0 ∧ decodeCommand 0x81000000 = .risclosed 1 ∧
  decodeCommand 0x90000064 = .setv 100 ∧ decodeCommand 0xA000FFFF = .setd 65535 ∧
  decodeCommand 0xB0000000 = .capture .fromOpen ∧ decodeCommand 0xB8000000 = .capture .fromClose ∧
  decodeCommand 0xC0000000 = .getstatus ∧ decodeCommand 0x10000001 = .illegal 0x10000001

/-- Commands and words are in one-to-one correspondence (30_encoding.md R80, R85, R86): the word of every well-formed
instruction decodes to it, and every word, with every operand value, is the word of the well-formed instruction it decodes to. -/
def Obligations.DecodeAndEncodeCommandsAreInverse : Prop :=
  (∀ (c : Config) (i : Instr) (w : Word), c.wf = true → i.wf c.phases = true → encodeCommand i = some w →
    decodeCommand w = i) ∧
  (∀ w : Word, encodeCommand (decodeCommand w) = some w ∧ ∀ n, (decodeCommand w).wf n = true)

/-- 30_encoding.md R90: the phase operation each PHASE value selects; the classes cover 0..PHASES-1 and are disjoint, since
the operation gives its PHASE value back. -/
def Obligations.PhaseSelectsItsOperation : Prop :=
  ∀ (c : Config) (p : Phase), c.wf = true →
    (p.toNat = 0 → decodePhase c.phases p = .ok .phLatch) ∧
    (p.toNat = 1 → decodePhase c.phases p = .ok .phUnlatch) ∧
    (p.toNat % 2 = 0 → 2 ≤ p.toNat → p.toNat ≤ c.phases - 2 → decodePhase c.phases p = .ok (.phClkhi p)) ∧
    (p.toNat % 2 = 1 → 3 ≤ p.toNat → p.toNat ≤ c.phases - 3 → decodePhase c.phases p = .ok (.phSample p)) ∧
    (p.toNat = c.phases - 1 → decodePhase c.phases p = .ok .phPublish) ∧
    (p.toNat < c.phases → ∃ i, decodePhase c.phases p = .ok i ∧ i.wf c.phases = true ∧
      encodePhase c.phases i = some p)

/-- 30_encoding.md R91: the micro-operation a TTICK and an MSTICK select. -/
def Obligations.TicksSelectByRegisters : Prop :=
  (∀ (tcnt tcmp : Half), ttickOp false tcnt tcmp = .ttIdle) ∧
  (∀ (tcnt tcmp : Half), (tcnt.toNat + 1) % 65536 ≠ tcmp.toNat → ttickOp true tcnt tcmp = .ttCount) ∧
  (∀ (tcnt tcmp : Half), (tcnt.toNat + 1) % 65536 = tcmp.toNat → ttickOp true tcnt tcmp = .ttMatch) ∧
  (∀ w : Half, mstickOp 0 w = .ok .msIdle) ∧
  (∀ (q : BitVec 3) (w : Half), 1 ≤ q.toNat → q.toNat ≤ 4 → 2 ≤ w.toNat → mstickOp q w = .ok .msCount) ∧
  mstickOp 1 1 = .ok .seqEndPrep ∧ mstickOp 2 1 = .ok .seqEndValve ∧
  mstickOp 3 1 = .ok .seqEndDelay ∧ mstickOp 4 1 = .ok .seqEndRelease

/-- 30_encoding.md R87 and 44_status.md R211: a word is ILLEGAL exactly when its OP is 0x0 or 0xD to 0xF, or RSV or a field its
opcode does not use is not 0; ILLEGAL only raises Diag(BADCMD) and responds 0. -/
def Obligations.IllegalWordsOnlyRaiseBadcmd : Prop :=
  (∀ w : Word,
    decodeCommand w = .illegal w ↔
      (let op := w.toNat / 2 ^ 28
       let ref := w.toNat / 2 ^ 27 % 2
       let idx := w.toNat / 2 ^ 24 % 8
       let rsv := w.toNat / 2 ^ 16 % 256
       let imm := w.toNat % 2 ^ 16
       op = 0 ∨ 13 ≤ op ∨ rsv ≠ 0 ∨ (ref ≠ 0 ∧ op ≠ 11) ∨ (idx ≠ 0 ∧ ¬ (5 ≤ op ∧ op ≤ 8)) ∨
         (imm ≠ 0 ∧ op ≠ 9 ∧ op ≠ 10))) ∧
  (∀ (w : Word) (s : State),
    exec (.illegal w) s = .next { s with diagBadcmd := true, rsp := 0, trace := .response 0 :: s.trace })

/-! ### Decoder commands and key access -/

/-- 40_decoder.md R100: START initialises a stopped decoder and leaves a running one as it is. -/
def Obligations.StartInitialisesOnlyWhenStopped : Prop :=
  decodeCommand 0x10000000 = .start ∧
  ∀ s : State, exec .start s = .next
    (if s.active = true then { s with diagReinit := true, rsp := 0, trace := .response 0 :: s.trace }
     else { s with
       phase := 0, acc := 0, keys := 0, newp := 0, ready := false
       tcnt := 0, tcmp := s.cfg.tPoll, active := true
       rsp := 0, trace := .response 0 :: s.trace })

/-- 40_decoder.md R101: STOP clears ACTIVE and nothing else, and while ACTIVE = 0 every TTICK is a TT_IDLE, which changes
nothing, so that no publication happens. -/
def Obligations.StopOnlyDisablesTheTimer : Prop :=
  decodeCommand 0x20000000 = .stop ∧
  (∀ s : State, exec .stop s = .next { s with active := false, rsp := 0, trace := .response 0 :: s.trace }) ∧
  (∀ s : State, s.active = false → ttickOp s.active s.tcnt s.tcmp = .ttIdle ∧ exec .ttIdle s = .next s)

/-- 41_key_access.md R140: GETHELD responds zext_32(KEYS) and writes nothing else; the response's bits 31:NBITS are 0. -/
def Obligations.GetheldReturnsKeys : Prop :=
  decodeCommand 0x30000000 = .getheld ∧
  (∀ s : State, exec .getheld s = .next { s with
    rsp := BitVec.ofNat 32 s.keys.toNat, trace := .response (BitVec.ofNat 32 s.keys.toNat) :: s.trace }) ∧
  (∀ s : State, StateInv s → ∃ t, exec .getheld s = .next t ∧ ∀ k, s.cfg.nbits ≤ k → t.rsp.getLsbD k = false)

/-- 41_key_access.md R141: GETPRESSED responds zext_32(NEWP) and clears NEWP; a second one with no publication between
responds 0. -/
def Obligations.GetpressedReadsAndClears : Prop :=
  decodeCommand 0x40000000 = .getpressed ∧
  (∀ s : State, exec .getpressed s = .next { s with
    newp := 0, rsp := BitVec.ofNat 32 s.newp.toNat
    trace := .response (BitVec.ofNat 32 s.newp.toNat) :: s.trace }) ∧
  (∀ s : State, ∃ t u, exec .getpressed s = .next t ∧ exec .getpressed t = .next u ∧ u.rsp = 0 ∧ u.newp = 0)

/-- The new-presses law behind 40_decoder.md R113: GETPRESSED and an accepted START clear NEWP, a publication ORs in the bits that
it takes from 0 to 1 in KEYS, and no other instruction changes NEWP or KEYS. -/
def Obligations.NewPressesAccumulateRisingEdges : Prop :=
  ∀ (i : Instr) (s t : State), exec i s = .next t →
    let publishes := i = .phPublish ∨ (i = .ttMatch ∧ phaseOp s.cfg.phases s.phase = .publish)
    let initialises := i = .start ∧ s.active = false
    (publishes → t.newp = s.newp ||| (t.keys &&& ~~~s.keys) ∧ t.keys = t.acc ∧ t.ready = true) ∧
    (initialises → t.newp = 0 ∧ t.keys = 0 ∧ t.ready = false) ∧
    (i = .getpressed → t.newp = 0) ∧
    (¬ publishes → ¬ initialises → t.keys = s.keys ∧ t.ready = s.ready ∧ (i ≠ .getpressed → t.newp = s.newp))

/-- 60_exceptions.md R228: a GETPRESSED and a publication in either order lose no edge and return none twice. -/
def Obligations.GetpressedAndPublicationCommuteOnEdges : Prop :=
  ∀ s : State, ∃ t1 t2 u1 u2,
    exec .getpressed s = .next t1 ∧ exec .phPublish t1 = .next t2 ∧
    exec .phPublish s = .next u1 ∧ exec .getpressed u1 = .next u2 ∧
    t2.keys = u2.keys ∧ u2.newp = 0 ∧ t2.newp = t2.keys &&& ~~~s.keys ∧
    u2.rsp = t1.rsp ||| BitVec.ofNat 32 t2.newp.toNat

/-- 41_key_access.md R143 to R145: the predicate of each button reads its bit, no predicate of a 12-bit button holds on 8 bits, and
any(ks) holds exactly when ks is not 0. -/
def Obligations.KeyPredicatesReadTheirBits : Prop :=
  (∀ ks : Half,
    key .a ks = ks.getLsbD 0 ∧ key .b ks = ks.getLsbD 1 ∧ key .select ks = ks.getLsbD 2 ∧
    key .start ks = ks.getLsbD 3 ∧ key .up ks = ks.getLsbD 4 ∧ key .down ks = ks.getLsbD 5 ∧
    key .left ks = ks.getLsbD 6 ∧ key .right ks = ks.getLsbD 7 ∧ key .x ks = ks.getLsbD 8 ∧
    key .y ks = ks.getLsbD 9 ∧ key .l ks = ks.getLsbD 10 ∧ key .r ks = ks.getLsbD 11) ∧
  (∀ ks : Half, ks.toNat < 2 ^ 8 →
    key .x ks = false ∧ key .y ks = false ∧ key .l ks = false ∧ key .r ks = false) ∧
  (∀ (c : Config) (ks : Half), c.wf = true → ks.toNat < 2 ^ c.nbits → (anyPressed c.nbits ks = true ↔ ks ≠ 0)) ∧
  (∀ (s : State) (n : Button), ∃ t, exec .getheld s = .next t ∧ key n (keyState t.rsp) = s.keys.getLsbD n.bit)

/-! ### Relays -/

/-- 42_relay.md R163 to R167 with R160 to R162: a relay command acts on the relay its index resolves to, relay 0 with Diag(BADIDX) for an
index not below NRELAYS. -/
def Obligations.RelayCommandsActOnTheResolvedRelay : Prop :=
  ∀ (s : State) (idx : BitVec 3),
    let bad := decide (s.cfg.nrelays ≤ idx.toNat)
    let j := if s.cfg.nrelays ≤ idx.toNat then 0 else idx.toNat
    let inv := s.cfg.invert.getD j false
    let pin := s.rly.getD j false
    decodeCommand (0x50000000 ||| (idx.setWidth 32 <<< 24)) = .ropen idx ∧
    decodeCommand (0x60000000 ||| (idx.setWidth 32 <<< 24)) = .rclose idx ∧
    decodeCommand (0x70000000 ||| (idx.setWidth 32 <<< 24)) = .risopen idx ∧
    decodeCommand (0x80000000 ||| (idx.setWidth 32 <<< 24)) = .risclosed idx ∧
    exec (.ropen idx) s = .next { s with
      rly := s.rly.set j inv, diagBadidx := s.diagBadidx || bad
      rsp := 0, trace := .response 0 :: .pin (.rly j) inv :: s.trace } ∧
    exec (.rclose idx) s = .next { s with
      rly := s.rly.set j (!inv), diagBadidx := s.diagBadidx || bad
      rsp := 0, trace := .response 0 :: .pin (.rly j) (!inv) :: s.trace } ∧
    exec (.risopen idx) s = .next { s with
      diagBadidx := s.diagBadidx || bad
      rsp := if pin = inv then 1 else 0
      trace := .response (if pin = inv then 1 else 0) :: s.trace } ∧
    exec (.risclosed idx) s = .next { s with
      diagBadidx := s.diagBadidx || bad
      rsp := if pin = inv then 0 else 1
      trace := .response (if pin = inv then 0 else 1) :: s.trace } ∧
    (s.cfg.nrelays = 8 → bad = false)

/-- The truth table of 42_relay.md R168, whatever the polarity: after RCLOSE a relay is closed and not open, after ROPEN it is open
and not closed, and its pin has the level that the polarity gives. -/
def Obligations.RelayTruthTable : Prop :=
  ∀ (s : State) (idx : BitVec 3), s.rly.length = s.cfg.nrelays → idx.toNat < s.cfg.nrelays →
    (∃ t u v, exec (.rclose idx) s = .next t ∧ t.rly[idx.toNat]? = s.cfg.invert[idx.toNat]?.map (!·) ∧
      exec (.risclosed idx) t = .next u ∧ u.rsp = 1 ∧ exec (.risopen idx) t = .next v ∧ v.rsp = 0) ∧
    (∃ t u v, exec (.ropen idx) s = .next t ∧ t.rly[idx.toNat]? = s.cfg.invert[idx.toNat]? ∧
      exec (.risclosed idx) t = .next u ∧ u.rsp = 0 ∧ exec (.risopen idx) t = .next v ∧ v.rsp = 1) ∧
    (∀ k, k ≠ idx.toNat → ∀ t, exec (.rclose idx) s = .next t ∨ exec (.ropen idx) s = .next t →
      t.rly[k]? = s.rly[k]?)

/-! ### Sequencer -/

/-- 43_sequencer.md R180 and R181: SETV writes VMS, SETD writes DMS, each with the zero-extended IMM16, no other instruction
writes either, and no step does while a capture holds the host. -/
def Obligations.DurationsAreWrittenOnlyBySetvAndSetd : Prop :=
  (∀ (ms : Half) (s : State),
    decodeCommand (0x90000000 ||| ms.setWidth 32) = .setv ms ∧
    decodeCommand (0xA0000000 ||| ms.setWidth 32) = .setd ms ∧
    exec (.setv ms) s = .next { s with vms := ms, rsp := 0, trace := .response 0 :: s.trace } ∧
    exec (.setd ms) s = .next { s with dms := ms, rsp := 0, trace := .response 0 :: s.trace }) ∧
  (∀ (i : Instr) (s t : State), exec i s = .next t →
    ((∀ ms, i ≠ .setv ms) → t.vms = s.vms) ∧ ((∀ ms, i ≠ .setd ms) → t.dms = s.dms)) ∧
  (∀ s t : State, s.pend = true → step s = .next t → t.vms = s.vms ∧ t.dms = s.dms)

/-- 43_sequencer.md R183: CAPTURE closes the cue relay and enters the PREP wait, with no response; where that wait is 0, Complete(PREP)
runs in the same event. BUSY becomes 1 unless every wait is 0, and an unheld host finds SEQ = IDLE. -/
def Obligations.CaptureClosesCueAndEntersPrep : Prop :=
  decodeCommand 0xB0000000 = .capture .fromOpen ∧ decodeCommand 0xB8000000 = .capture .fromClose ∧
  ∀ (s : State) (ref : Ref),
    let cue := s.cfg.cueIdx
    let level := !(s.cfg.invert.getD cue false)
    let waiting := { s with
      pend := true, cref := ref, rly := s.rly.set cue level
      seq := 1, w := s.cfg.tPrepMs, trace := .pin (.rly cue) level :: s.trace }
    let e := if ref = .fromOpen then s.dms.toNat - s.vms.toNat else s.dms.toNat
    (s.cfg.tPrepMs ≠ 0 → exec (.capture ref) s = .next waiting) ∧
    (s.cfg.tPrepMs = 0 → exec (.capture ref) s = exec .seqEndPrep waiting) ∧
    (∃ t, exec (.capture ref) s = .next t ∧
      (t.seq = 0 ↔ s.cfg.tPrepMs = 0 ∧ s.vms = 0 ∧ e = 0 ∧ s.cfg.tRelMs = 0)) ∧
    (StateInv s → s.pend = false → s.seq = 0)

/-- 43_sequencer.md R187 to R189 with R185: each completion drives its relay and enters the next wait, or, where that wait is 0, runs the
next completion in the same event. -/
def Obligations.CompletionsEnterTheNextWait : Prop :=
  ∀ s : State,
    let valve := s.cfg.valveIdx
    let rel := s.cfg.relIdx
    let vinv := s.cfg.invert.getD valve false
    let rinv := s.cfg.invert.getD rel false
    let e := if s.cref = .fromOpen then BitVec.ofNat 16 (s.dms.toNat - s.vms.toNat) else s.dms
    let inValve := { s with
      rly := s.rly.set valve (!vinv), seq := 2, w := s.vms, trace := .pin (.rly valve) (!vinv) :: s.trace }
    let inDelay := { s with
      rly := s.rly.set valve vinv, seq := 3, w := e, trace := .pin (.rly valve) vinv :: s.trace }
    let inRelease := { s with
      rly := s.rly.set rel (!rinv), seq := 4, w := s.cfg.tRelMs, trace := .pin (.rly rel) (!rinv) :: s.trace }
    (exec .seqEndPrep s = if s.vms = 0 then exec .seqEndValve inValve else .next inValve) ∧
    (exec .seqEndValve s = if e = 0 then exec .seqEndDelay inDelay else .next inDelay) ∧
    (exec .seqEndDelay s = if s.cfg.tRelMs = 0 then exec .seqEndRelease inRelease else .next inRelease) ∧
    (∃ t, exec .seqEndPrep s = .next t) ∧ (∃ t, exec .seqEndValve s = .next t) ∧
    (∃ t, exec .seqEndDelay s = .next t)

/-- 43_sequencer.md R190: Complete(RELEASE) opens the release relay, then the cue relay, ends the capture and responds 0. W is 0 when it
runs (R186); the model writes it with this micro-operation (log 8). -/
def Obligations.ReleaseCompletionEndsTheCapture : Prop :=
  ∀ s : State,
    let rel := s.cfg.relIdx
    let cue := s.cfg.cueIdx
    let rinv := s.cfg.invert.getD rel false
    let cinv := s.cfg.invert.getD cue false
    exec .seqEndRelease s = .next { s with
      rly := (s.rly.set rel rinv).set cue cinv, seq := 0, w := 0, pend := false, rsp := 0
      trace := .response 0 :: .pin (.rly cue) cinv :: .pin (.rly rel) rinv :: s.trace }

/-- 43_sequencer.md R191: the effective delay saturates at 0 from valve-open and is the delay itself from valve-close. -/
def Obligations.EffectiveDelaySaturates : Prop :=
  ∀ d v : Half,
    (effDelay .fromOpen d v).toNat = max 0 ((d.toNat : Int) - (v.toNat : Int)) ∧
    (d.toNat ≤ v.toNat → effDelay .fromOpen d v = 0) ∧
    effDelay .fromOpen d 0 = d ∧ effDelay .fromClose d v = d

/-- 43_sequencer.md R186: an MSTICK changes nothing while SEQ = IDLE; otherwise it takes 1 from W and, where W reaches 0, runs
the completion of the wait. -/
def Obligations.MstickCountsOrCompletes : Prop :=
  ∀ (s : State) (rest : List Event), s.cfg.wf = true → s.inputs = .mstick :: rest →
    let taken := { s with inputs := rest, now := s.now + 1, trace := .event .mstick :: s.trace }
    (s.seq = 0 → step s = exec .msIdle taken ∧ exec .msIdle taken = .next taken) ∧
    (1 ≤ s.seq.toNat → s.seq.toNat ≤ 4 → 2 ≤ s.w.toNat →
      step s = exec .msCount taken ∧ exec .msCount taken = .next { taken with w := BitVec.ofNat 16 (s.w.toNat - 1) }) ∧
    (s.w.toNat = 1 → s.seq = 1 → step s = exec .seqEndPrep taken) ∧
    (s.w.toNat = 1 → s.seq = 2 → step s = exec .seqEndValve taken) ∧
    (s.w.toNat = 1 → s.seq = 3 → step s = exec .seqEndDelay taken) ∧
    (s.w.toNat = 1 → s.seq = 4 → step s = exec .seqEndRelease taken)

/-- 43_sequencer.md R192: the relay edges of a capture, in MSTICKs from the CAPTURE event. A relay the capture has not driven yet keeps
its level (70_reset_and_hazards.md R259). -/
def Obligations.CaptureTimeline : Prop :=
  ∀ (s : State) (ref : Ref) (word : Word) (n : Nat),
    StateInv s → s.pend = false → decodeCommand word = .capture ref →
    let t1 := s.cfg.tPrepMs.toNat
    let t2 := t1 + s.vms.toNat
    let t3 := t2 + (if ref = .fromOpen then s.dms.toNat - s.vms.toNat else s.dms.toNat)
    let t4 := t3 + s.cfg.tRelMs.toNat
    ∃ t, runEvents (.host word :: msticks n) s = .next t ∧
      isClosed t s.cfg.cueIdx = decide (n < t4) ∧
      isClosed t s.cfg.valveIdx = (if n < t1 then isClosed s s.cfg.valveIdx else decide (n < t2)) ∧
      isClosed t s.cfg.relIdx = (if n < t3 then isClosed s s.cfg.relIdx else decide (n < t4)) ∧
      t.pend = decide (n < t4) ∧
      t.seq = (if n < t1 then 1 else if n < t2 then 2 else if n < t3 then 3 else if n < t4 then 4 else 0) ∧
      (t4 ≤ n → t.rsp = 0)

/-- 43_sequencer.md R185 and 20_memory.md R73: where every wait is 0, the whole capture is one event, with its six pin writes and its
response in order (the trace is newest first). -/
def Obligations.ZeroWaitCaptureIsOneEvent : Prop :=
  ∀ (s : State) (ref : Ref), s.cfg.tPrepMs = 0 → s.vms = 0 → s.dms = 0 → s.cfg.tRelMs = 0 →
    let inv := fun j => s.cfg.invert.getD j false
    let cue := s.cfg.cueIdx
    let valve := s.cfg.valveIdx
    let rel := s.cfg.relIdx
    ∃ t, exec (.capture ref) s = .next t ∧ t.seq = 0 ∧ t.pend = false ∧ t.rsp = 0 ∧
      t.trace = .response 0 :: .pin (.rly cue) (inv cue) :: .pin (.rly rel) (inv rel) ::
        .pin (.rly rel) (!inv rel) :: .pin (.rly valve) (inv valve) :: .pin (.rly valve) (!inv valve) ::
        .pin (.rly cue) (!inv cue) :: s.trace

/-- 43_sequencer.md R193: nothing aborts a capture. While one runs, every step keeps it running, at the same wait or a later one and
with no more left to wait in the same one, or completes it with the response 0. -/
def Obligations.CaptureIsNeverAborted : Prop :=
  ∀ s t : State, StateInv s → s.pend = true → step s = .next t →
    (t.pend = true ∧ t.cref = s.cref ∧ t.vms = s.vms ∧ t.dms = s.dms ∧
      (s.seq.toNat < t.seq.toNat ∨ (t.seq = s.seq ∧ t.w.toNat ≤ s.w.toNat ∧ t.rly = s.rly))) ∨
    (t.pend = false ∧ t.seq = 0 ∧ t.rsp = 0 ∧ t.trace.head? = some (.response 0) ∧
      (nextEvent s).1 = .mstick ∧ s.w.toNat = 1)

/-! ### Status and diagnostics -/

/-- 44_status.md R210 with the layout of 10_state.md R47: GETSTATUS returns the status bits and clears the diagnostics; BUSY reads 0
whenever the host can issue it. -/
def Obligations.GetstatusReturnsStatusAndClearsDiagnostics : Prop :=
  decodeCommand 0xC0000000 = .getstatus ∧
  ∀ s : State, s.cfg.wf = true → ∃ v : Word,
    exec .getstatus s = .next { s with
      diagReinit := false, diagBadidx := false, diagBadcmd := false
      rsp := v, trace := .response v :: s.trace } ∧
    v.getLsbD 0 = s.active ∧ v.getLsbD 1 = s.ready ∧ v.getLsbD 2 = decide (s.seq ≠ 0) ∧
    v.getLsbD 8 = s.diagReinit ∧ v.getLsbD 9 = s.diagBadidx ∧ v.getLsbD 10 = s.diagBadcmd ∧
    v.toNat / 2 ^ 16 % 16 = (if s.cfg.nbits = 12 then 1 else 0) ∧
    v.toNat / 2 ^ 20 % 8 = s.cfg.nrelays - 1 ∧
    v.toNat / 2 ^ 3 % 2 ^ 5 = 0 ∧ v.toNat / 2 ^ 11 % 2 ^ 5 = 0 ∧ v.toNat / 2 ^ 23 = 0 ∧
    (StateInv s → s.pend = false → v.getLsbD 2 = false)

/-- 10_state.md R41: which instruction sets each diagnostic, and that only GETSTATUS and reset clear one. -/
def Obligations.DiagnosticsAreStickyUntilGetstatus : Prop :=
  (∀ c : Config, (State.resetFor c).diagReinit = false ∧ (State.resetFor c).diagBadidx = false ∧
    (State.resetFor c).diagBadcmd = false) ∧
  ∀ (i : Instr) (s t : State), exec i s = .next t →
    let badRelay := ∃ idx : BitVec 3, s.cfg.nrelays ≤ idx.toNat ∧
      (i = .ropen idx ∨ i = .rclose idx ∨ i = .risopen idx ∨ i = .risclosed idx)
    (i = .getstatus → t.diagReinit = false ∧ t.diagBadidx = false ∧ t.diagBadcmd = false) ∧
    (i ≠ .getstatus →
      (t.diagReinit = true ↔ s.diagReinit = true ∨ (i = .start ∧ s.active = true)) ∧
      (t.diagBadidx = true ↔ s.diagBadidx = true ∨ badRelay) ∧
      (t.diagBadcmd = true ↔ s.diagBadcmd = true ∨ ∃ w, i = .illegal w))

/-- 30_encoding.md R89: the response of every command. CAPTURE's comes with Complete(RELEASE), in its own event where every wait is 0. -/
def Obligations.CommandsRespondAsTabled : Prop :=
  ∀ s : State,
    (∀ i : Instr, (i = .start ∨ i = .stop ∨ (∃ j, i = .ropen j) ∨ (∃ j, i = .rclose j) ∨ (∃ m, i = .setv m) ∨
        (∃ m, i = .setd m) ∨ (∃ w, i = .illegal w) ∨ i = .seqEndRelease) →
      ∃ t, exec i s = .next t ∧ t.rsp = 0 ∧ t.trace.head? = some (.response 0)) ∧
    (∃ t, exec .getheld s = .next t ∧ t.rsp = BitVec.ofNat 32 s.keys.toNat ∧ t.trace = .response t.rsp :: s.trace) ∧
    (∃ t, exec .getpressed s = .next t ∧ t.rsp = BitVec.ofNat 32 s.newp.toNat ∧
      t.trace = .response t.rsp :: s.trace) ∧
    (∀ j : BitVec 3, ∃ t u, exec (.risopen j) s = .next t ∧ exec (.risclosed j) s = .next u ∧
      t.rsp = (if isOpen s (resolve j s).1 = true then 1 else 0) ∧
      u.rsp = (if isClosed s (resolve j s).1 = true then 1 else 0) ∧
      t.trace = .response t.rsp :: s.trace ∧ u.trace = .response u.rsp :: s.trace) ∧
    (∃ t, exec .getstatus s = .next t ∧ t.rsp = statusWord s ∧ t.trace = .response t.rsp :: s.trace) ∧
    (∀ ref : Ref, ∃ t, exec (.capture ref) s = .next t ∧
      ((t.pend = true ∧ t.rsp = s.rsp) ∨ (t.pend = false ∧ t.rsp = 0 ∧ t.trace.head? = some (.response 0))))

/-! ### Timer and decoder micro-operations -/

/-- 40_decoder.md R102: a TTICK does nothing while ACTIVE = 0; otherwise the count advances modulo 65536 and, where it equals TCMP, is
cleared and the compare match runs in the same event. -/
def Obligations.TimerTickCountsAndMatches : Prop :=
  ∀ (s : State) (b : Bool) (rest : List Event), s.cfg.wf = true → s.inputs = .ttick b :: rest →
    let taken := { s with inputs := rest, now := s.now + 1, data := b, trace := .event (.ttick b) :: s.trace }
    (s.active = false → step s = exec .ttIdle taken ∧ exec .ttIdle taken = .next taken) ∧
    (s.active = true → (s.tcnt.toNat + 1) % 65536 ≠ s.tcmp.toNat →
      step s = exec .ttCount taken ∧
      exec .ttCount taken = .next { taken with tcnt := BitVec.ofNat 16 (s.tcnt.toNat + 1) }) ∧
    (s.active = true → (s.tcnt.toNat + 1) % 65536 = s.tcmp.toNat →
      step s = exec .ttMatch taken ∧ ∃ t, exec .ttMatch taken = .next t ∧ t.tcnt = 0)

/-- 40_decoder.md R104 and R110: a compare match runs the phase operation that PHASE selects, advances PHASE by one modulo PHASES and
re-arms TCMP on the new PHASE. -/
def Obligations.CompareMatchRunsAdvancesAndRearms : Prop :=
  ∀ (s : State) (i : Instr), s.cfg.wf = true → decodePhase s.cfg.phases s.phase = .ok i →
    let p' := (s.phase.toNat + 1) % s.cfg.phases
    ∃ t, exec i { s with tcnt := 0 } = .next t ∧
      exec .ttMatch s = .next { t with
        phase := BitVec.ofNat 5 p'
        tcmp := if p' = 0 then s.cfg.tPoll else if p' = 1 then s.cfg.tBit else s.tcmp }

/-- 40_decoder.md R105 and R107, and R106's action: PH_LATCH raises LATCH and clears ACC, PH_UNLATCH lowers LATCH, PH_CLKHI raises CLK;
nothing else changes. -/
def Obligations.LatchAndClockPhasesDriveTheirLine : Prop :=
  ∀ s : State,
    exec .phLatch s = .next { s with latch := true, acc := 0, trace := .pin .latch true :: s.trace } ∧
    exec .phUnlatch s = .next { s with latch := false, trace := .pin .latch false :: s.trace } ∧
    ∀ p : Phase, exec (.phClkhi p) s = .next { s with clk := true, trace := .pin .clk true :: s.trace }

/-- 40_decoder.md R108: PH_SAMPLE(p) ORs the inverted DATA level into bit (p-3)/2 of ACC and lowers CLK; nothing else changes. -/
def Obligations.SampleSetsItsBit : Prop :=
  ∀ (s : State) (p : Phase), s.cfg.wf = true → p.toNat % 2 = 1 → 3 ≤ p.toNat → p.toNat ≤ s.cfg.phases - 3 →
    exec (.phSample p) s = .next { s with
      acc := s.acc ||| BitVec.ofNat 16 (if s.data = true then 0 else 2 ^ ((p.toNat - 3) / 2))
      clk := false, trace := .pin .clk false :: s.trace }

/-- 40_decoder.md R109: PH_PUBLISH samples bit NBITS-1, lowers CLK, publishes ACC as KEYS, sets READY and ORs the bits newly set
against the previous KEYS into NEWP. -/
def Obligations.PublishTakesTheLastSampleAndTheEdges : Prop :=
  ∀ s : State, s.cfg.wf = true →
    let full := s.acc ||| BitVec.ofNat 16 (if s.data = true then 0 else 2 ^ (s.cfg.nbits - 1))
    exec .phPublish s = .next { s with
      acc := full, keys := full, ready := true, newp := s.newp ||| (full &&& ~~~s.keys)
      clk := false, trace := .pin .clk false :: s.trace }

/-- 40_decoder.md R103: from TCNT = 0 the compare match comes on the per(TCMP)-th TTICK and not before, whatever the DATA level. -/
def Obligations.CompareMatchComesAfterPerTicks : Prop :=
  ∀ (s : State) (d : Nat → Bool), s.cfg.wf = true → s.active = true → s.tcnt = 0 →
    let period := if s.tcmp.toNat = 0 then 65536 else s.tcmp.toNat
    (∀ n, n < period → ∃ t, runEvents (tticks n d) s = .next t ∧
      t.tcnt.toNat = n ∧ t.phase = s.phase ∧ t.tcmp = s.tcmp ∧ t.acc = s.acc ∧ t.keys = s.keys ∧ t.newp = s.newp ∧
      t.latch = s.latch ∧ t.clk = s.clk) ∧
    (∃ t, runEvents (tticks period d) s = .next t ∧
      t.tcnt = 0 ∧ t.phase.toNat = (s.phase.toNat + 1) % s.cfg.phases)

/-- 40_decoder.md R111 and R112: a poll cycle lasts per(T_POLL) + (PHASES-1)*per(T_BIT) ticks; if DATA reads 1 - B[k] at the sample of
each bit k, the cycle publishes B, for every NBITS-bit B and both widths; before its last tick KEYS, NEWP and READY stand. -/
def Obligations.PollCycleRoundTrip : Prop :=
  ∀ (s : State) (d : Nat → Bool) (b : Half),
    StateInv s → s.active = true → s.phase = 0 → s.tcnt = 0 → b.toNat < 2 ^ s.cfg.nbits →
    let long := if s.cfg.tPoll.toNat = 0 then 65536 else s.cfg.tPoll.toNat
    let short := if s.cfg.tBit.toNat = 0 then 65536 else s.cfg.tBit.toNat
    let length := long + (s.cfg.phases - 1) * short
    (∀ k, k < s.cfg.nbits → d (long + (2 * k + 3) * short) = !b.getLsbD k) →
    (∀ n, n < length → ∃ t, runEvents (tticks n d) s = .next t ∧
      t.keys = s.keys ∧ t.newp = s.newp ∧ t.ready = s.ready) ∧
    (∃ t, runEvents (tticks length d) s = .next t ∧
      t.keys = b ∧ t.ready = true ∧ t.newp = s.newp ||| (b &&& ~~~s.keys) ∧
      t.active = true ∧ t.phase = 0 ∧ t.tcnt = 0 ∧ t.tcmp = s.cfg.tPoll ∧ t.latch = false ∧ t.clk = false)

/-! ### Steps -/

/-- A step runs the instruction of the event it takes, in the state in which the event is taken off the inputs, counted and
recorded (00_scope.md R13; the inputs are the model's, log 3). -/
def Obligations.StepRunsTheSelectedInstruction : Prop :=
  ∀ s : State, s.cfg.wf = true →
    (∀ c rest, s.inputs = .host c :: rest → s.pend = false →
      step s = exec (decodeCommand c) { s with
        inputs := rest, now := s.now + 1, trace := .event (.host c) :: s.trace }) ∧
    (∀ b rest, s.inputs = .ttick b :: rest →
      step s = exec (ttickOp s.active s.tcnt s.tcmp) { s with
        inputs := rest, now := s.now + 1, data := b, trace := .event (.ttick b) :: s.trace }) ∧
    (∀ i rest, s.inputs = .mstick :: rest → mstickOp s.seq s.w = .ok i →
      step s = exec i { s with inputs := rest, now := s.now + 1, trace := .event .mstick :: s.trace }) ∧
    (s.inputs = [] → s.pend = false →
      step s = runEvent (Config.freeEvent s.now) (arrive (Config.freeEvent s.now) [] s))

/-- The word that withFetchWord presents is the instruction the next step runs, from any state (log 15). -/
def Obligations.WithFetchWordRunsTheWord : Prop :=
  ∀ (s : State) (w : Nat), s.cfg.wf = true →
    step (s.withFetchWord 32 w) = exec (decodeCommand (BitVec.ofNat 32 w)) { s with
      pend := false, now := s.now + 1, trace := .event (.host (BitVec.ofNat 32 w)) :: s.trace } ∧
    (∀ p : Phase, step (s.withFetchWord 8 p.toNat) = exec .ttMatch { s with
      active := true, phase := p, tcnt := s.tcmp - 1
      now := s.now + 1, trace := .event (.ttick s.data) :: s.trace })

/-- 43_sequencer.md R182: while PEND = 1 no step takes a HOST event; the host's commands wait, in their order, and ticks go ahead of them
(that they wait in the list of inputs is the model's, log 4). -/
def Obligations.HostIsHeldWhilePending : Prop :=
  ∀ s : State, s.cfg.wf = true → s.pend = true →
    (∃ t, (nextEvent s).1 = .tick t) ∧
    (∀ (cs : List Word) (t : Tick) (rest : List Event), s.inputs = cs.map .host ++ .tick t :: rest →
      step s = runEvent (.tick t) (arrive (.tick t) (cs.map .host ++ rest) s)) ∧
    (∀ cs : List Word, s.inputs = cs.map .host →
      step s = runEvent (.tick (Config.freeTick s.now)) (arrive (.tick (Config.freeTick s.now)) s.inputs s))

/-- 00_scope.md R9: the machine refuses exactly the configurations that the rule does not admit. -/
def Obligations.OnlyBadConfigurationsAreRefused : Prop :=
  ∀ s : State, step s = .refused .badConfiguration ↔
    ¬ ((s.cfg.nbits = 8 ∨ s.cfg.nbits = 12) ∧ 1 ≤ s.cfg.nrelays ∧ s.cfg.nrelays ≤ 8 ∧
      s.cfg.valveIdx < s.cfg.nrelays ∧ s.cfg.cueIdx < s.cfg.nrelays ∧ s.cfg.relIdx < s.cfg.nrelays ∧
      s.cfg.valveIdx ≠ s.cfg.cueIdx ∧ s.cfg.valveIdx ≠ s.cfg.relIdx ∧ s.cfg.cueIdx ≠ s.cfg.relIdx)

/-- The two stops of the model, each in a state that no run reaches: SEQ 5 to 7 (93_implementation_defined.md I15; log 9), and a wait
with W = 0 (log 10). -/
def Obligations.UnreachableSequencerStatesStop : Prop :=
  ∀ (s : State) (rest : List Event), s.cfg.wf = true → s.inputs = .mstick :: rest →
    (5 ≤ s.seq.toNat → step s = .fault .seqUndefined) ∧
    (1 ≤ s.seq.toNat → s.seq.toNat ≤ 4 → s.w = 0 → step s = .fault .waitUnderflow)

/-- 60_exceptions.md R225: no command and no micro-operation faults, traps or halts, and no state of the invariant stops. -/
def Obligations.NothingTraps : Prop :=
  (∀ (i : Instr) (s : State), ∃ t, exec i s = .next t ∧ t.cfg = s.cfg ∧ t.inputs = s.inputs ∧ t.now = s.now ∧
    t.data = s.data) ∧
  (∀ s : State, StateInv s → ∃ t, step s = .next t)

/-! ### Reset, invariants and whole-machine rules -/

/-- 70_reset_and_hazards.md R250: every element after reset, under any configuration. -/
def Obligations.ResetValues : Prop :=
  ∀ c : Config, let s := State.resetFor c
    s.cfg = c ∧ s.active = false ∧ s.phase = 0 ∧ s.acc = 0 ∧ s.keys = 0 ∧ s.newp = 0 ∧ s.ready = false ∧
    s.tcnt = 0 ∧ s.tcmp = 0 ∧ s.latch = false ∧ s.clk = false ∧ s.rly = c.invert ∧ s.seq = 0 ∧ s.w = 0 ∧
    s.cref.bit = false ∧ s.vms = 0 ∧ s.dms = 0 ∧ s.diagReinit = false ∧ s.diagBadidx = false ∧
    s.diagBadcmd = false ∧ s.pend = false ∧ s.rsp = 0

/-- 70_reset_and_hazards.md R251: after reset every relay is open, by its pin and by RISOPEN. -/
def Obligations.RelaysAreOpenAfterReset : Prop :=
  ∀ (c : Config) (idx : BitVec 3), idx.toNat < c.nrelays →
    (State.resetFor c).rly[idx.toNat]? = c.invert[idx.toNat]? ∧
    ∃ t, exec (.risopen idx) (State.resetFor c) = .next t ∧ t.rsp = 1

/-- The invariants hold at reset (10_state.md R43, R45; 20_memory.md R73), and State.reset is reset under the configuration of
95_test_vectors.md, which is the model's choice (log 2). -/
def Obligations.InvariantHoldsAtReset : Prop :=
  (∀ c : Config, c.wf = true → StateInv (State.resetFor c) ∧ PinsAgree (State.resetFor c)) ∧
  State.reset = State.resetFor Config.vectors ∧ Config.vectors.wf = true

/-- 10_state.md R43 and R45: every step keeps the invariant. -/
def Obligations.StepKeepsInvariant : Prop :=
  ∀ s t : State, StateInv s → step s = .next t → StateInv t

/-- 10_state.md R45: START makes TCMP one of the two compare values, and every step keeps it one of them. -/
def Obligations.CompareValueStaysConfigured : Prop :=
  (∀ s t : State, s.active = false → exec .start s = .next t → t.tcmp = t.cfg.tPoll) ∧
  (∀ s t : State, (s.tcmp = s.cfg.tBit ∨ s.tcmp = s.cfg.tPoll) → step s = .next t →
    (t.tcmp = t.cfg.tBit ∨ t.tcmp = t.cfg.tPoll))

/-- 20_memory.md R73: from a state of the invariant whose pins agree with the trace, a step adds exactly the event and then every
pin write and the response of the instruction it selects, in the order of the instruction's rule, writes of the standing level
included (the trace is newest first), and the pins agree again. That events are items too is the model's choice (log 6). -/
def Obligations.TraceRecordsEveryPinWrite : Prop :=
  ∀ s t : State, StateInv s → PinsAgree s → step s = .next t →
    PinsAgree t ∧ ∃ i, select (nextEvent s).1 s = .ok i ∧
      t.trace = (itemsOf i s).reverse ++ .event (nextEvent s).1 :: s.trace

/-- 60_exceptions.md R232: who may write the timer, PHASE, the lines and the relays. Only START and the timer's own micro-operations
change TCNT, TCMP and PHASE, no command changes LATCH or CLK, and a relay's pin changes only by a relay command or the sequencer,
through a write of that pin that the trace records. -/
def Obligations.TimerLinesAndRelaysHaveOneOwner : Prop :=
  ∀ (i : Instr) (s t : State), exec i s = .next t →
    (t.phase ≠ s.phase ∨ t.tcmp ≠ s.tcmp → i = .start ∨ i = .ttMatch) ∧
    (t.tcnt ≠ s.tcnt → i = .start ∨ i = .ttCount ∨ i = .ttMatch) ∧
    (t.latch ≠ s.latch → i = .phLatch ∨ i = .phUnlatch ∨ i = .ttMatch) ∧
    (t.clk ≠ s.clk → (∃ p, i = .phClkhi p) ∨ (∃ p, i = .phSample p) ∨ i = .phPublish ∨ i = .ttMatch) ∧
    ((∃ w, encodeCommand i = some w) → t.latch = s.latch ∧ t.clk = s.clk) ∧
    (t.rly ≠ s.rly → (∃ j, i = .ropen j) ∨ (∃ j, i = .rclose j) ∨ (∃ r, i = .capture r) ∨
      i = .seqEndPrep ∨ i = .seqEndValve ∨ i = .seqEndDelay ∨ i = .seqEndRelease) ∧
    (∀ j, t.rly[j]? ≠ s.rly[j]? → ∃ new level, t.trace = new ++ s.trace ∧ .pin (.rly j) level ∈ new)

/-- 43_sequencer.md R193: the decoder's events neither read nor write SEQ, W, CREF or any relay, nor the other elements of the
sequencer and the host port: from any values of those, the tick has the same effect and leaves them. -/
def Obligations.DecoderIgnoresTheSequencer : Prop :=
  ∀ (i : Instr) (s t : State) (rly : List Bool) (seq : BitVec 3) (w vms dms : Half) (cref : Ref) (pend : Bool) (rsp : Word),
    i = .ttIdle ∨ i = .ttCount ∨ i = .ttMatch → exec i s = .next t →
    exec i { s with rly := rly, seq := seq, w := w, cref := cref, vms := vms, dms := dms, pend := pend, rsp := rsp } =
      .next { t with rly := rly, seq := seq, w := w, cref := cref, vms := vms, dms := dms, pend := pend, rsp := rsp }

/-- 43_sequencer.md R193 and 60_exceptions.md R234, the other way: the millisecond tick neither reads nor writes the decoder. -/
def Obligations.SequencerIgnoresTheDecoder : Prop :=
  ∀ (i : Instr) (s t : State) (active ready latch clk : Bool) (phase : Phase) (acc keys newp tcnt tcmp : Half),
    i = .msIdle ∨ i = .msCount ∨ i = .seqEndPrep ∨ i = .seqEndValve ∨ i = .seqEndDelay ∨ i = .seqEndRelease →
    exec i s = .next t →
    exec i { s with
        active := active, ready := ready, latch := latch, clk := clk, phase := phase
        acc := acc, keys := keys, newp := newp, tcnt := tcnt, tcmp := tcmp } =
      .next { t with
        active := active, ready := ready, latch := latch, clk := clk, phase := phase
        acc := acc, keys := keys, newp := newp, tcnt := tcnt, tcmp := tcmp }

/-! ### Pseudo-instructions -/

/-- 30_encoding.md R93: the words of CAPT, and RTOGGLE's choice by the response of its RISOPEN. -/
def Obligations.PseudoInstructionsExpand : Prop :=
  (∀ (v d : Half) (ref : Ref), expandCapt v d ref =
    some [.issue (0x90000000 ||| v.setWidth 32), .issue (0xA0000000 ||| d.setWidth 32),
      .issue (if ref = .fromOpen then 0xB0000000 else 0xB8000000)]) ∧
  (∀ i : BitVec 3, ∃ first second, expandRtoggle i = some [first, second] ∧
    (∀ r, first.word r = 0x70000000 ||| (i.setWidth 32 <<< 24)) ∧
    second.word 1 = 0x60000000 ||| (i.setWidth 32 <<< 24) ∧
    (∀ r, r ≠ 1 → second.word r = 0x50000000 ||| (i.setWidth 32 <<< 24)))
end

