-- ==== Sys2Proof/Laws/Decode.lean ====
section
/-! SUPPORT. Decoding by rows: the rows do not overlap, so a row that hits decides; what a packed word's bits are. -/

namespace Sys2Proof.Laws

/-- In a field that a row's mask covers, a word the row hits has the row's own bits (30_encoding.md R85). -/
theorem field_of_hit {r : Row} {w : Word} (lo n : Nat) (hm : r.mask.extractLsb' lo n = BitVec.allOnes n)
    (h : r.hits w = true) : w.extractLsb' lo n = r.pat.extractLsb' lo n := by
  have h' : w &&& r.mask = r.pat := by simpa [Row.hits] using h
  rw [← h', BitVec.extractLsb'_and, hm, BitVec.and_allOnes]

/-- "The rows of rule R85 have pairwise distinct OP values" (30_encoding.md R86). -/
theorem rows_opcodes_distinct :
    rows.Pairwise (fun a b => a.pat.extractLsb' 28 4 ≠ b.pat.extractLsb' 28 4) := by
  simp [rows, List.pairwise_cons]

/-- Every row's mask covers OP. -/
theorem rows_mask_opcode : ∀ r ∈ rows, r.mask.extractLsb' 28 4 = BitVec.allOnes 4 := by
  simp [rows, BitVec.allOnes]

/-- In a list of rows with distinct opcodes, a row that hits is the row found. -/
theorem find_of_hit {r : Row} {w : Word} :
    ∀ {l : List Row}, l.Pairwise (fun a b => a.pat.extractLsb' 28 4 ≠ b.pat.extractLsb' 28 4) →
      (∀ q ∈ l, q.mask.extractLsb' 28 4 = BitVec.allOnes 4) → r ∈ l → r.hits w = true →
      l.find? (fun q => q.hits w) = some r := by
  intro l
  induction l with
  | nil => intro _ _ hr _; cases hr
  | cons a t ih =>
    intro hp hm hr h
    rw [List.pairwise_cons] at hp
    rcases List.mem_cons.mp hr with rfl | ht
    · exact List.find?_cons_of_pos h
    · have hmiss : ¬ a.hits w = true := by
        intro ha
        have e1 := field_of_hit 28 4 (hm a (by simp)) ha
        have e2 := field_of_hit 28 4 (hm r hr) h
        exact hp.1 r ht (by rw [← e1, ← e2])
      rw [List.find?_cons_of_neg (by simpa using hmiss)]
      exact ih hp.2 (fun q hq => hm q (by simp [hq])) ht h

/-- A row that hits decides (30_encoding.md R86: "at most one row matches"). -/
theorem decode_of_hit {r : Row} {w : Word} (hr : r ∈ rows) (h : r.hits w = true) :
    decodeCommand w = r.build w := by
  simp [decodeCommand, find_of_hit rows_opcodes_distinct rows_mask_opcode hr h]

/-- What decodeCommand answers: a row's instruction, or ILLEGAL where no row hits. -/
theorem decode_cases (w : Word) :
    (∃ r ∈ rows, r.hits w = true ∧ decodeCommand w = r.build w) ∨
    ((∀ r ∈ rows, r.hits w = false) ∧ decodeCommand w = .illegal w) := by
  by_cases hany : ∃ r ∈ rows, r.hits w = true
  · obtain ⟨r, hr, h⟩ := hany
    exact .inl ⟨r, hr, h, decode_of_hit hr h⟩
  · refine .inr ⟨fun r hr => ?_, ?_⟩
    · cases hb : r.hits w with
      | false => rfl
      | true => exact absurd ⟨r, hr, hb⟩ hany
    · have : rows.find? (fun r => r.hits w) = none := by
        rw [List.find?_eq_none]
        intro r hr h
        exact hany ⟨r, hr, h⟩
      simp [decodeCommand, this]

/-- The bits of a packed word (30_encoding.md R80). -/
theorem packCommand_getLsbD (op : BitVec 4) (ref : BitVec 1) (idx : BitVec 3) (imm : Half) (i : Nat) :
    (packCommand op ref idx imm).getLsbD i =
      if i < 16 then imm.getLsbD i else if i < 24 then false else if i < 27 then idx.getLsbD (i - 24)
      else if i < 28 then ref.getLsbD (i - 27) else op.getLsbD (i - 28) := by
  unfold packCommand
  rw [BitVec.getLsbD_append, BitVec.getLsbD_append, BitVec.getLsbD_append, BitVec.getLsbD_append]
  split
  · rfl
  · rw [show i - 16 - 8 = i - 24 by omega, show i - 24 - 3 = i - 27 by omega, show i - 27 - 1 = i - 28 by omega]
    by_cases h1 : i < 24
    · simp [h1, show i - 16 < 8 by omega]
    · by_cases h2 : i < 27
      · simp [h1, h2, show ¬ i - 16 < 8 by omega, show i - 24 < 3 by omega]
      · by_cases h3 : i < 28
        · simp [h1, h2, h3, show ¬ i - 16 < 8 by omega, show ¬ i - 24 < 3 by omega, show i - 27 < 1 by omega]
        · simp [h1, h2, h3, show ¬ i - 16 < 8 by omega, show ¬ i - 24 < 3 by omega, show ¬ i - 27 < 1 by omega]

/-- The OP of a packed word. -/
theorem packCommand_op (op : BitVec 4) (ref : BitVec 1) (idx : BitVec 3) (imm : Half) :
    (packCommand op ref idx imm).extractLsb' 28 4 = op := by
  apply BitVec.eq_of_getLsbD_eq
  intro i hi
  rw [BitVec.getLsbD_extractLsb', packCommand_getLsbD]
  interval_cases i <;> simp

/-- The IDX of a packed word. -/
theorem packCommand_idx (op : BitVec 4) (ref : BitVec 1) (idx : BitVec 3) (imm : Half) :
    fieldIdx (packCommand op ref idx imm) = idx := by
  apply BitVec.eq_of_getLsbD_eq
  intro i hi
  rw [fieldIdx, BitVec.getLsbD_extractLsb', packCommand_getLsbD]
  interval_cases i <;> simp

/-- The IMM16 of a packed word. -/
theorem packCommand_imm (op : BitVec 4) (ref : BitVec 1) (idx : BitVec 3) (imm : Half) :
    fieldImm16 (packCommand op ref idx imm) = imm := by
  apply BitVec.eq_of_getLsbD_eq
  intro i hi
  rw [fieldImm16, BitVec.getLsbD_extractLsb', packCommand_getLsbD]
  interval_cases i <;> simp

/-- The REF of a packed word. -/
theorem packCommand_ref (op : BitVec 4) (ref : Ref) (idx : BitVec 3) (imm : Half) :
    fieldRef (packCommand op (BitVec.ofBool ref.bit) idx imm) = ref := by
  rw [fieldRef, packCommand_getLsbD]
  cases ref <;> simp [Ref.bit]

/-- A relay command's word hits its row, whatever the index. -/
theorem hit_relay (op : BitVec 4) (idx : BitVec 3) :
    packCommand op 0 idx 0 &&& 0xF8FFFFFF#32 = packCommand op 0 0 0 := by
  apply BitVec.eq_of_getLsbD_eq
  intro i hi
  rw [BitVec.getLsbD_and, packCommand_getLsbD, packCommand_getLsbD]
  interval_cases i <;> simp

/-- A duration command's word hits its row, whatever the duration. -/
theorem hit_duration (op : BitVec 4) (ms : Half) :
    packCommand op 0 0 ms &&& 0xFFFF0000#32 = packCommand op 0 0 0 := by
  apply BitVec.eq_of_getLsbD_eq
  intro i hi
  rw [BitVec.getLsbD_and, packCommand_getLsbD, packCommand_getLsbD]
  interval_cases i <;> simp

/-- A word whose reserved field is 0 is its fields, packed (30_encoding.md R80). -/
theorem pack_of_fields (w : Word) (h : w.extractLsb' 16 8 = 0) :
    packCommand (w.extractLsb' 28 4) (w.extractLsb' 27 1) (fieldIdx w) (fieldImm16 w) = w := by
  have hb : ∀ i, (w.extractLsb' 16 8).getLsbD i = (0#8).getLsbD i := fun i => by rw [h]; rfl
  apply BitVec.eq_of_getLsbD_eq
  intro i hi
  have h16 := hb (i - 16)
  rw [packCommand_getLsbD, fieldIdx, fieldImm16]
  rw [BitVec.getLsbD_extractLsb'] at h16
  interval_cases i <;> simp at h16 ⊢ <;> simp_all

/-- A row's hit, read field by field, makes the word a command word (30_encoding.md R85, R87). -/
theorem isCommandWord_of_hit {r : Row} (hr : r ∈ rows) {w : Word} (h : r.hits w = true) : isCommandWord w = true := by
  have hop := field_of_hit 28 4 (rows_mask_opcode r hr) h
  simp only [rows, List.mem_cons, List.not_mem_nil, or_false] at hr
  rcases hr with rfl | rfl | rfl | rfl | rfl | rfl | rfl | rfl | rfl | rfl | rfl | rfl
  all_goals
    unfold isCommandWord
    first
    | simp [hop, field_of_hit 27 1 (by decide) h, field_of_hit 24 3 (by decide) h, field_of_hit 16 8 (by decide) h,
        field_of_hit 0 16 (by decide) h]
    | simp [hop, field_of_hit 27 1 (by decide) h, field_of_hit 16 8 (by decide) h, field_of_hit 0 16 (by decide) h]
    | simp [hop, field_of_hit 27 1 (by decide) h, field_of_hit 24 3 (by decide) h, field_of_hit 16 8 (by decide) h]
    | simp [hop, field_of_hit 24 3 (by decide) h, field_of_hit 16 8 (by decide) h, field_of_hit 0 16 (by decide) h]

/-- The configurations of 00_scope.md R9 have 8 bits and 18 phases, or 12 and 26. -/
theorem phases_of_wf {c : Config} (h : c.wf = true) :
    (c.nbits = 8 ∧ c.phases = 18) ∨ (c.nbits = 12 ∧ c.phases = 26) := by
  have : c.nbits = 8 ∨ c.nbits = 12 := by
    simp only [Config.wf, Bool.and_eq_true, Bool.or_eq_true, beq_iff_eq] at h
    exact h.1.1.1
  unfold Config.phases
  omega

end Sys2Proof.Laws
end

