-- ==== Sys2Proof/Laws/State.lean ====
section
/-! SUPPORT. One lemma per field per shared update of State, so that no later proof unfolds a record update. -/

namespace Sys2Proof.Machine

variable (s : State)

section pinWrite

@[simp] theorem pinWrite_cfg (p : Pin) (v : Bool) : (pinWrite p v s).cfg = s.cfg := by cases p <;> rfl
@[simp] theorem pinWrite_active (p : Pin) (v : Bool) : (pinWrite p v s).active = s.active := by cases p <;> rfl
@[simp] theorem pinWrite_phase (p : Pin) (v : Bool) : (pinWrite p v s).phase = s.phase := by cases p <;> rfl
@[simp] theorem pinWrite_acc (p : Pin) (v : Bool) : (pinWrite p v s).acc = s.acc := by cases p <;> rfl
@[simp] theorem pinWrite_keys (p : Pin) (v : Bool) : (pinWrite p v s).keys = s.keys := by cases p <;> rfl
@[simp] theorem pinWrite_newp (p : Pin) (v : Bool) : (pinWrite p v s).newp = s.newp := by cases p <;> rfl
@[simp] theorem pinWrite_ready (p : Pin) (v : Bool) : (pinWrite p v s).ready = s.ready := by cases p <;> rfl
@[simp] theorem pinWrite_tcnt (p : Pin) (v : Bool) : (pinWrite p v s).tcnt = s.tcnt := by cases p <;> rfl
@[simp] theorem pinWrite_tcmp (p : Pin) (v : Bool) : (pinWrite p v s).tcmp = s.tcmp := by cases p <;> rfl
@[simp] theorem pinWrite_latch (p : Pin) (v : Bool) : (pinWrite p v s).latch = if p = .latch then v else s.latch := by cases p <;> simp [pinWrite]
@[simp] theorem pinWrite_clk (p : Pin) (v : Bool) : (pinWrite p v s).clk = if p = .clk then v else s.clk := by cases p <;> simp [pinWrite]
@[simp] theorem pinWrite_data (p : Pin) (v : Bool) : (pinWrite p v s).data = s.data := by cases p <;> rfl
@[simp] theorem pinWrite_rly (p : Pin) (v : Bool) : (pinWrite p v s).rly = match p with | .rly j => s.rly.set j v | .latch | .clk => s.rly := by cases p <;> rfl
@[simp] theorem pinWrite_seq (p : Pin) (v : Bool) : (pinWrite p v s).seq = s.seq := by cases p <;> rfl
@[simp] theorem pinWrite_w (p : Pin) (v : Bool) : (pinWrite p v s).w = s.w := by cases p <;> rfl
@[simp] theorem pinWrite_cref (p : Pin) (v : Bool) : (pinWrite p v s).cref = s.cref := by cases p <;> rfl
@[simp] theorem pinWrite_vms (p : Pin) (v : Bool) : (pinWrite p v s).vms = s.vms := by cases p <;> rfl
@[simp] theorem pinWrite_dms (p : Pin) (v : Bool) : (pinWrite p v s).dms = s.dms := by cases p <;> rfl
@[simp] theorem pinWrite_diagReinit (p : Pin) (v : Bool) : (pinWrite p v s).diagReinit = s.diagReinit := by cases p <;> rfl
@[simp] theorem pinWrite_diagBadidx (p : Pin) (v : Bool) : (pinWrite p v s).diagBadidx = s.diagBadidx := by cases p <;> rfl
@[simp] theorem pinWrite_diagBadcmd (p : Pin) (v : Bool) : (pinWrite p v s).diagBadcmd = s.diagBadcmd := by cases p <;> rfl
@[simp] theorem pinWrite_pend (p : Pin) (v : Bool) : (pinWrite p v s).pend = s.pend := by cases p <;> rfl
@[simp] theorem pinWrite_rsp (p : Pin) (v : Bool) : (pinWrite p v s).rsp = s.rsp := by cases p <;> rfl
@[simp] theorem pinWrite_trace (p : Pin) (v : Bool) : (pinWrite p v s).trace = .pin p v :: s.trace := by cases p <;> rfl
@[simp] theorem pinWrite_inputs (p : Pin) (v : Bool) : (pinWrite p v s).inputs = s.inputs := by cases p <;> rfl
@[simp] theorem pinWrite_now (p : Pin) (v : Bool) : (pinWrite p v s).now = s.now := by cases p <;> rfl

end pinWrite

section respond

@[simp] theorem respond_cfg (v : Word) : (respond v s).cfg = s.cfg := rfl
@[simp] theorem respond_active (v : Word) : (respond v s).active = s.active := rfl
@[simp] theorem respond_phase (v : Word) : (respond v s).phase = s.phase := rfl
@[simp] theorem respond_acc (v : Word) : (respond v s).acc = s.acc := rfl
@[simp] theorem respond_keys (v : Word) : (respond v s).keys = s.keys := rfl
@[simp] theorem respond_newp (v : Word) : (respond v s).newp = s.newp := rfl
@[simp] theorem respond_ready (v : Word) : (respond v s).ready = s.ready := rfl
@[simp] theorem respond_tcnt (v : Word) : (respond v s).tcnt = s.tcnt := rfl
@[simp] theorem respond_tcmp (v : Word) : (respond v s).tcmp = s.tcmp := rfl
@[simp] theorem respond_latch (v : Word) : (respond v s).latch = s.latch := rfl
@[simp] theorem respond_clk (v : Word) : (respond v s).clk = s.clk := rfl
@[simp] theorem respond_data (v : Word) : (respond v s).data = s.data := rfl
@[simp] theorem respond_rly (v : Word) : (respond v s).rly = s.rly := rfl
@[simp] theorem respond_seq (v : Word) : (respond v s).seq = s.seq := rfl
@[simp] theorem respond_w (v : Word) : (respond v s).w = s.w := rfl
@[simp] theorem respond_cref (v : Word) : (respond v s).cref = s.cref := rfl
@[simp] theorem respond_vms (v : Word) : (respond v s).vms = s.vms := rfl
@[simp] theorem respond_dms (v : Word) : (respond v s).dms = s.dms := rfl
@[simp] theorem respond_diagReinit (v : Word) : (respond v s).diagReinit = s.diagReinit := rfl
@[simp] theorem respond_diagBadidx (v : Word) : (respond v s).diagBadidx = s.diagBadidx := rfl
@[simp] theorem respond_diagBadcmd (v : Word) : (respond v s).diagBadcmd = s.diagBadcmd := rfl
@[simp] theorem respond_pend (v : Word) : (respond v s).pend = s.pend := rfl
@[simp] theorem respond_rsp (v : Word) : (respond v s).rsp = v := rfl
@[simp] theorem respond_trace (v : Word) : (respond v s).trace = .response v :: s.trace := rfl
@[simp] theorem respond_inputs (v : Word) : (respond v s).inputs = s.inputs := rfl
@[simp] theorem respond_now (v : Word) : (respond v s).now = s.now := rfl

end respond

section raiseDiag

@[simp] theorem raiseDiag_cfg (d : Diag) : (raiseDiag d s).cfg = s.cfg := by cases d <;> rfl
@[simp] theorem raiseDiag_active (d : Diag) : (raiseDiag d s).active = s.active := by cases d <;> rfl
@[simp] theorem raiseDiag_phase (d : Diag) : (raiseDiag d s).phase = s.phase := by cases d <;> rfl
@[simp] theorem raiseDiag_acc (d : Diag) : (raiseDiag d s).acc = s.acc := by cases d <;> rfl
@[simp] theorem raiseDiag_keys (d : Diag) : (raiseDiag d s).keys = s.keys := by cases d <;> rfl
@[simp] theorem raiseDiag_newp (d : Diag) : (raiseDiag d s).newp = s.newp := by cases d <;> rfl
@[simp] theorem raiseDiag_ready (d : Diag) : (raiseDiag d s).ready = s.ready := by cases d <;> rfl
@[simp] theorem raiseDiag_tcnt (d : Diag) : (raiseDiag d s).tcnt = s.tcnt := by cases d <;> rfl
@[simp] theorem raiseDiag_tcmp (d : Diag) : (raiseDiag d s).tcmp = s.tcmp := by cases d <;> rfl
@[simp] theorem raiseDiag_latch (d : Diag) : (raiseDiag d s).latch = s.latch := by cases d <;> rfl
@[simp] theorem raiseDiag_clk (d : Diag) : (raiseDiag d s).clk = s.clk := by cases d <;> rfl
@[simp] theorem raiseDiag_data (d : Diag) : (raiseDiag d s).data = s.data := by cases d <;> rfl
@[simp] theorem raiseDiag_rly (d : Diag) : (raiseDiag d s).rly = s.rly := by cases d <;> rfl
@[simp] theorem raiseDiag_seq (d : Diag) : (raiseDiag d s).seq = s.seq := by cases d <;> rfl
@[simp] theorem raiseDiag_w (d : Diag) : (raiseDiag d s).w = s.w := by cases d <;> rfl
@[simp] theorem raiseDiag_cref (d : Diag) : (raiseDiag d s).cref = s.cref := by cases d <;> rfl
@[simp] theorem raiseDiag_vms (d : Diag) : (raiseDiag d s).vms = s.vms := by cases d <;> rfl
@[simp] theorem raiseDiag_dms (d : Diag) : (raiseDiag d s).dms = s.dms := by cases d <;> rfl
@[simp] theorem raiseDiag_diagReinit (d : Diag) : (raiseDiag d s).diagReinit = (s.diagReinit || decide (d = .reinit)) := by cases d <;> simp [raiseDiag]
@[simp] theorem raiseDiag_diagBadidx (d : Diag) : (raiseDiag d s).diagBadidx = (s.diagBadidx || decide (d = .badidx)) := by cases d <;> simp [raiseDiag]
@[simp] theorem raiseDiag_diagBadcmd (d : Diag) : (raiseDiag d s).diagBadcmd = (s.diagBadcmd || decide (d = .badcmd)) := by cases d <;> simp [raiseDiag]
@[simp] theorem raiseDiag_pend (d : Diag) : (raiseDiag d s).pend = s.pend := by cases d <;> rfl
@[simp] theorem raiseDiag_rsp (d : Diag) : (raiseDiag d s).rsp = s.rsp := by cases d <;> rfl
@[simp] theorem raiseDiag_trace (d : Diag) : (raiseDiag d s).trace = s.trace := by cases d <;> rfl
@[simp] theorem raiseDiag_inputs (d : Diag) : (raiseDiag d s).inputs = s.inputs := by cases d <;> rfl
@[simp] theorem raiseDiag_now (d : Diag) : (raiseDiag d s).now = s.now := by cases d <;> rfl

end raiseDiag

section relayOpen

@[simp] theorem relayOpen_cfg (j : Nat) : (relayOpen j s).cfg = s.cfg := rfl
@[simp] theorem relayOpen_active (j : Nat) : (relayOpen j s).active = s.active := rfl
@[simp] theorem relayOpen_phase (j : Nat) : (relayOpen j s).phase = s.phase := rfl
@[simp] theorem relayOpen_acc (j : Nat) : (relayOpen j s).acc = s.acc := rfl
@[simp] theorem relayOpen_keys (j : Nat) : (relayOpen j s).keys = s.keys := rfl
@[simp] theorem relayOpen_newp (j : Nat) : (relayOpen j s).newp = s.newp := rfl
@[simp] theorem relayOpen_ready (j : Nat) : (relayOpen j s).ready = s.ready := rfl
@[simp] theorem relayOpen_tcnt (j : Nat) : (relayOpen j s).tcnt = s.tcnt := rfl
@[simp] theorem relayOpen_tcmp (j : Nat) : (relayOpen j s).tcmp = s.tcmp := rfl
@[simp] theorem relayOpen_latch (j : Nat) : (relayOpen j s).latch = s.latch := rfl
@[simp] theorem relayOpen_clk (j : Nat) : (relayOpen j s).clk = s.clk := rfl
@[simp] theorem relayOpen_data (j : Nat) : (relayOpen j s).data = s.data := rfl
@[simp] theorem relayOpen_rly (j : Nat) : (relayOpen j s).rly = s.rly.set j (invertAt s.cfg j) := rfl
@[simp] theorem relayOpen_seq (j : Nat) : (relayOpen j s).seq = s.seq := rfl
@[simp] theorem relayOpen_w (j : Nat) : (relayOpen j s).w = s.w := rfl
@[simp] theorem relayOpen_cref (j : Nat) : (relayOpen j s).cref = s.cref := rfl
@[simp] theorem relayOpen_vms (j : Nat) : (relayOpen j s).vms = s.vms := rfl
@[simp] theorem relayOpen_dms (j : Nat) : (relayOpen j s).dms = s.dms := rfl
@[simp] theorem relayOpen_diagReinit (j : Nat) : (relayOpen j s).diagReinit = s.diagReinit := rfl
@[simp] theorem relayOpen_diagBadidx (j : Nat) : (relayOpen j s).diagBadidx = s.diagBadidx := rfl
@[simp] theorem relayOpen_diagBadcmd (j : Nat) : (relayOpen j s).diagBadcmd = s.diagBadcmd := rfl
@[simp] theorem relayOpen_pend (j : Nat) : (relayOpen j s).pend = s.pend := rfl
@[simp] theorem relayOpen_rsp (j : Nat) : (relayOpen j s).rsp = s.rsp := rfl
@[simp] theorem relayOpen_trace (j : Nat) : (relayOpen j s).trace = .pin (.rly j) (invertAt s.cfg j) :: s.trace := rfl
@[simp] theorem relayOpen_inputs (j : Nat) : (relayOpen j s).inputs = s.inputs := rfl
@[simp] theorem relayOpen_now (j : Nat) : (relayOpen j s).now = s.now := rfl

end relayOpen

section relayClose

@[simp] theorem relayClose_cfg (j : Nat) : (relayClose j s).cfg = s.cfg := rfl
@[simp] theorem relayClose_active (j : Nat) : (relayClose j s).active = s.active := rfl
@[simp] theorem relayClose_phase (j : Nat) : (relayClose j s).phase = s.phase := rfl
@[simp] theorem relayClose_acc (j : Nat) : (relayClose j s).acc = s.acc := rfl
@[simp] theorem relayClose_keys (j : Nat) : (relayClose j s).keys = s.keys := rfl
@[simp] theorem relayClose_newp (j : Nat) : (relayClose j s).newp = s.newp := rfl
@[simp] theorem relayClose_ready (j : Nat) : (relayClose j s).ready = s.ready := rfl
@[simp] theorem relayClose_tcnt (j : Nat) : (relayClose j s).tcnt = s.tcnt := rfl
@[simp] theorem relayClose_tcmp (j : Nat) : (relayClose j s).tcmp = s.tcmp := rfl
@[simp] theorem relayClose_latch (j : Nat) : (relayClose j s).latch = s.latch := rfl
@[simp] theorem relayClose_clk (j : Nat) : (relayClose j s).clk = s.clk := rfl
@[simp] theorem relayClose_data (j : Nat) : (relayClose j s).data = s.data := rfl
@[simp] theorem relayClose_rly (j : Nat) : (relayClose j s).rly = s.rly.set j (!invertAt s.cfg j) := rfl
@[simp] theorem relayClose_seq (j : Nat) : (relayClose j s).seq = s.seq := rfl
@[simp] theorem relayClose_w (j : Nat) : (relayClose j s).w = s.w := rfl
@[simp] theorem relayClose_cref (j : Nat) : (relayClose j s).cref = s.cref := rfl
@[simp] theorem relayClose_vms (j : Nat) : (relayClose j s).vms = s.vms := rfl
@[simp] theorem relayClose_dms (j : Nat) : (relayClose j s).dms = s.dms := rfl
@[simp] theorem relayClose_diagReinit (j : Nat) : (relayClose j s).diagReinit = s.diagReinit := rfl
@[simp] theorem relayClose_diagBadidx (j : Nat) : (relayClose j s).diagBadidx = s.diagBadidx := rfl
@[simp] theorem relayClose_diagBadcmd (j : Nat) : (relayClose j s).diagBadcmd = s.diagBadcmd := rfl
@[simp] theorem relayClose_pend (j : Nat) : (relayClose j s).pend = s.pend := rfl
@[simp] theorem relayClose_rsp (j : Nat) : (relayClose j s).rsp = s.rsp := rfl
@[simp] theorem relayClose_trace (j : Nat) : (relayClose j s).trace = .pin (.rly j) (!invertAt s.cfg j) :: s.trace := rfl
@[simp] theorem relayClose_inputs (j : Nat) : (relayClose j s).inputs = s.inputs := rfl
@[simp] theorem relayClose_now (j : Nat) : (relayClose j s).now = s.now := rfl

end relayClose

section clearDiags

@[simp] theorem clearDiags_cfg : (clearDiags s).cfg = s.cfg := rfl
@[simp] theorem clearDiags_active : (clearDiags s).active = s.active := rfl
@[simp] theorem clearDiags_phase : (clearDiags s).phase = s.phase := rfl
@[simp] theorem clearDiags_acc : (clearDiags s).acc = s.acc := rfl
@[simp] theorem clearDiags_keys : (clearDiags s).keys = s.keys := rfl
@[simp] theorem clearDiags_newp : (clearDiags s).newp = s.newp := rfl
@[simp] theorem clearDiags_ready : (clearDiags s).ready = s.ready := rfl
@[simp] theorem clearDiags_tcnt : (clearDiags s).tcnt = s.tcnt := rfl
@[simp] theorem clearDiags_tcmp : (clearDiags s).tcmp = s.tcmp := rfl
@[simp] theorem clearDiags_latch : (clearDiags s).latch = s.latch := rfl
@[simp] theorem clearDiags_clk : (clearDiags s).clk = s.clk := rfl
@[simp] theorem clearDiags_data : (clearDiags s).data = s.data := rfl
@[simp] theorem clearDiags_rly : (clearDiags s).rly = s.rly := rfl
@[simp] theorem clearDiags_seq : (clearDiags s).seq = s.seq := rfl
@[simp] theorem clearDiags_w : (clearDiags s).w = s.w := rfl
@[simp] theorem clearDiags_cref : (clearDiags s).cref = s.cref := rfl
@[simp] theorem clearDiags_vms : (clearDiags s).vms = s.vms := rfl
@[simp] theorem clearDiags_dms : (clearDiags s).dms = s.dms := rfl
@[simp] theorem clearDiags_diagReinit : (clearDiags s).diagReinit = false := rfl
@[simp] theorem clearDiags_diagBadidx : (clearDiags s).diagBadidx = false := rfl
@[simp] theorem clearDiags_diagBadcmd : (clearDiags s).diagBadcmd = false := rfl
@[simp] theorem clearDiags_pend : (clearDiags s).pend = s.pend := rfl
@[simp] theorem clearDiags_rsp : (clearDiags s).rsp = s.rsp := rfl
@[simp] theorem clearDiags_trace : (clearDiags s).trace = s.trace := rfl
@[simp] theorem clearDiags_inputs : (clearDiags s).inputs = s.inputs := rfl
@[simp] theorem clearDiags_now : (clearDiags s).now = s.now := rfl

end clearDiags

section initDecoder

@[simp] theorem initDecoder_cfg : (initDecoder s).cfg = s.cfg := rfl
@[simp] theorem initDecoder_active : (initDecoder s).active = true := rfl
@[simp] theorem initDecoder_phase : (initDecoder s).phase = 0 := rfl
@[simp] theorem initDecoder_acc : (initDecoder s).acc = 0 := rfl
@[simp] theorem initDecoder_keys : (initDecoder s).keys = 0 := rfl
@[simp] theorem initDecoder_newp : (initDecoder s).newp = 0 := rfl
@[simp] theorem initDecoder_ready : (initDecoder s).ready = false := rfl
@[simp] theorem initDecoder_tcnt : (initDecoder s).tcnt = 0 := rfl
@[simp] theorem initDecoder_tcmp : (initDecoder s).tcmp = s.cfg.tPoll := rfl
@[simp] theorem initDecoder_latch : (initDecoder s).latch = s.latch := rfl
@[simp] theorem initDecoder_clk : (initDecoder s).clk = s.clk := rfl
@[simp] theorem initDecoder_data : (initDecoder s).data = s.data := rfl
@[simp] theorem initDecoder_rly : (initDecoder s).rly = s.rly := rfl
@[simp] theorem initDecoder_seq : (initDecoder s).seq = s.seq := rfl
@[simp] theorem initDecoder_w : (initDecoder s).w = s.w := rfl
@[simp] theorem initDecoder_cref : (initDecoder s).cref = s.cref := rfl
@[simp] theorem initDecoder_vms : (initDecoder s).vms = s.vms := rfl
@[simp] theorem initDecoder_dms : (initDecoder s).dms = s.dms := rfl
@[simp] theorem initDecoder_diagReinit : (initDecoder s).diagReinit = s.diagReinit := rfl
@[simp] theorem initDecoder_diagBadidx : (initDecoder s).diagBadidx = s.diagBadidx := rfl
@[simp] theorem initDecoder_diagBadcmd : (initDecoder s).diagBadcmd = s.diagBadcmd := rfl
@[simp] theorem initDecoder_pend : (initDecoder s).pend = s.pend := rfl
@[simp] theorem initDecoder_rsp : (initDecoder s).rsp = s.rsp := rfl
@[simp] theorem initDecoder_trace : (initDecoder s).trace = s.trace := rfl
@[simp] theorem initDecoder_inputs : (initDecoder s).inputs = s.inputs := rfl
@[simp] theorem initDecoder_now : (initDecoder s).now = s.now := rfl

end initDecoder

section sampleInto

@[simp] theorem sampleInto_cfg (k : Nat) : (sampleInto k s).cfg = s.cfg := rfl
@[simp] theorem sampleInto_active (k : Nat) : (sampleInto k s).active = s.active := rfl
@[simp] theorem sampleInto_phase (k : Nat) : (sampleInto k s).phase = s.phase := rfl
@[simp] theorem sampleInto_acc (k : Nat) : (sampleInto k s).acc = s.acc ||| sampleBit s.data k := rfl
@[simp] theorem sampleInto_keys (k : Nat) : (sampleInto k s).keys = s.keys := rfl
@[simp] theorem sampleInto_newp (k : Nat) : (sampleInto k s).newp = s.newp := rfl
@[simp] theorem sampleInto_ready (k : Nat) : (sampleInto k s).ready = s.ready := rfl
@[simp] theorem sampleInto_tcnt (k : Nat) : (sampleInto k s).tcnt = s.tcnt := rfl
@[simp] theorem sampleInto_tcmp (k : Nat) : (sampleInto k s).tcmp = s.tcmp := rfl
@[simp] theorem sampleInto_latch (k : Nat) : (sampleInto k s).latch = s.latch := rfl
@[simp] theorem sampleInto_clk (k : Nat) : (sampleInto k s).clk = !clkAsserted := rfl
@[simp] theorem sampleInto_data (k : Nat) : (sampleInto k s).data = s.data := rfl
@[simp] theorem sampleInto_rly (k : Nat) : (sampleInto k s).rly = s.rly := rfl
@[simp] theorem sampleInto_seq (k : Nat) : (sampleInto k s).seq = s.seq := rfl
@[simp] theorem sampleInto_w (k : Nat) : (sampleInto k s).w = s.w := rfl
@[simp] theorem sampleInto_cref (k : Nat) : (sampleInto k s).cref = s.cref := rfl
@[simp] theorem sampleInto_vms (k : Nat) : (sampleInto k s).vms = s.vms := rfl
@[simp] theorem sampleInto_dms (k : Nat) : (sampleInto k s).dms = s.dms := rfl
@[simp] theorem sampleInto_diagReinit (k : Nat) : (sampleInto k s).diagReinit = s.diagReinit := rfl
@[simp] theorem sampleInto_diagBadidx (k : Nat) : (sampleInto k s).diagBadidx = s.diagBadidx := rfl
@[simp] theorem sampleInto_diagBadcmd (k : Nat) : (sampleInto k s).diagBadcmd = s.diagBadcmd := rfl
@[simp] theorem sampleInto_pend (k : Nat) : (sampleInto k s).pend = s.pend := rfl
@[simp] theorem sampleInto_rsp (k : Nat) : (sampleInto k s).rsp = s.rsp := rfl
@[simp] theorem sampleInto_trace (k : Nat) : (sampleInto k s).trace = .pin .clk (!clkAsserted) :: s.trace := rfl
@[simp] theorem sampleInto_inputs (k : Nat) : (sampleInto k s).inputs = s.inputs := rfl
@[simp] theorem sampleInto_now (k : Nat) : (sampleInto k s).now = s.now := rfl

end sampleInto

section publish

@[simp] theorem publish_cfg : (publish s).cfg = s.cfg := rfl
@[simp] theorem publish_active : (publish s).active = s.active := rfl
@[simp] theorem publish_phase : (publish s).phase = s.phase := rfl
@[simp] theorem publish_acc : (publish s).acc = s.acc := rfl
@[simp] theorem publish_keys : (publish s).keys = s.acc := rfl
@[simp] theorem publish_newp : (publish s).newp = s.newp ||| (s.acc &&& ~~~s.keys) := rfl
@[simp] theorem publish_ready : (publish s).ready = true := rfl
@[simp] theorem publish_tcnt : (publish s).tcnt = s.tcnt := rfl
@[simp] theorem publish_tcmp : (publish s).tcmp = s.tcmp := rfl
@[simp] theorem publish_latch : (publish s).latch = s.latch := rfl
@[simp] theorem publish_clk : (publish s).clk = s.clk := rfl
@[simp] theorem publish_data : (publish s).data = s.data := rfl
@[simp] theorem publish_rly : (publish s).rly = s.rly := rfl
@[simp] theorem publish_seq : (publish s).seq = s.seq := rfl
@[simp] theorem publish_w : (publish s).w = s.w := rfl
@[simp] theorem publish_cref : (publish s).cref = s.cref := rfl
@[simp] theorem publish_vms : (publish s).vms = s.vms := rfl
@[simp] theorem publish_dms : (publish s).dms = s.dms := rfl
@[simp] theorem publish_diagReinit : (publish s).diagReinit = s.diagReinit := rfl
@[simp] theorem publish_diagBadidx : (publish s).diagBadidx = s.diagBadidx := rfl
@[simp] theorem publish_diagBadcmd : (publish s).diagBadcmd = s.diagBadcmd := rfl
@[simp] theorem publish_pend : (publish s).pend = s.pend := rfl
@[simp] theorem publish_rsp : (publish s).rsp = s.rsp := rfl
@[simp] theorem publish_trace : (publish s).trace = s.trace := rfl
@[simp] theorem publish_inputs : (publish s).inputs = s.inputs := rfl
@[simp] theorem publish_now : (publish s).now = s.now := rfl

end publish

section reArm

@[simp] theorem reArm_cfg : (reArm s).cfg = s.cfg := by unfold reArm; split <;> [rfl; (split <;> rfl)]
@[simp] theorem reArm_active : (reArm s).active = s.active := by unfold reArm; split <;> [rfl; (split <;> rfl)]
@[simp] theorem reArm_phase : (reArm s).phase = s.phase := by unfold reArm; split <;> [rfl; (split <;> rfl)]
@[simp] theorem reArm_acc : (reArm s).acc = s.acc := by unfold reArm; split <;> [rfl; (split <;> rfl)]
@[simp] theorem reArm_keys : (reArm s).keys = s.keys := by unfold reArm; split <;> [rfl; (split <;> rfl)]
@[simp] theorem reArm_newp : (reArm s).newp = s.newp := by unfold reArm; split <;> [rfl; (split <;> rfl)]
@[simp] theorem reArm_ready : (reArm s).ready = s.ready := by unfold reArm; split <;> [rfl; (split <;> rfl)]
@[simp] theorem reArm_tcnt : (reArm s).tcnt = s.tcnt := by unfold reArm; split <;> [rfl; (split <;> rfl)]
@[simp] theorem reArm_tcmp : (reArm s).tcmp = if s.phase = 0 then s.cfg.tPoll else if s.phase = 1 then s.cfg.tBit else s.tcmp := by unfold reArm; split <;> [rfl; (split <;> rfl)]
@[simp] theorem reArm_latch : (reArm s).latch = s.latch := by unfold reArm; split <;> [rfl; (split <;> rfl)]
@[simp] theorem reArm_clk : (reArm s).clk = s.clk := by unfold reArm; split <;> [rfl; (split <;> rfl)]
@[simp] theorem reArm_data : (reArm s).data = s.data := by unfold reArm; split <;> [rfl; (split <;> rfl)]
@[simp] theorem reArm_rly : (reArm s).rly = s.rly := by unfold reArm; split <;> [rfl; (split <;> rfl)]
@[simp] theorem reArm_seq : (reArm s).seq = s.seq := by unfold reArm; split <;> [rfl; (split <;> rfl)]
@[simp] theorem reArm_w : (reArm s).w = s.w := by unfold reArm; split <;> [rfl; (split <;> rfl)]
@[simp] theorem reArm_cref : (reArm s).cref = s.cref := by unfold reArm; split <;> [rfl; (split <;> rfl)]
@[simp] theorem reArm_vms : (reArm s).vms = s.vms := by unfold reArm; split <;> [rfl; (split <;> rfl)]
@[simp] theorem reArm_dms : (reArm s).dms = s.dms := by unfold reArm; split <;> [rfl; (split <;> rfl)]
@[simp] theorem reArm_diagReinit : (reArm s).diagReinit = s.diagReinit := by unfold reArm; split <;> [rfl; (split <;> rfl)]
@[simp] theorem reArm_diagBadidx : (reArm s).diagBadidx = s.diagBadidx := by unfold reArm; split <;> [rfl; (split <;> rfl)]
@[simp] theorem reArm_diagBadcmd : (reArm s).diagBadcmd = s.diagBadcmd := by unfold reArm; split <;> [rfl; (split <;> rfl)]
@[simp] theorem reArm_pend : (reArm s).pend = s.pend := by unfold reArm; split <;> [rfl; (split <;> rfl)]
@[simp] theorem reArm_rsp : (reArm s).rsp = s.rsp := by unfold reArm; split <;> [rfl; (split <;> rfl)]
@[simp] theorem reArm_trace : (reArm s).trace = s.trace := by unfold reArm; split <;> [rfl; (split <;> rfl)]
@[simp] theorem reArm_inputs : (reArm s).inputs = s.inputs := by unfold reArm; split <;> [rfl; (split <;> rfl)]
@[simp] theorem reArm_now : (reArm s).now = s.now := by unfold reArm; split <;> [rfl; (split <;> rfl)]

end reArm

section arrive

@[simp] theorem arrive_cfg (e : Event) (left : List Event) : (arrive e left s).cfg = s.cfg := rfl
@[simp] theorem arrive_active (e : Event) (left : List Event) : (arrive e left s).active = s.active := rfl
@[simp] theorem arrive_phase (e : Event) (left : List Event) : (arrive e left s).phase = s.phase := rfl
@[simp] theorem arrive_acc (e : Event) (left : List Event) : (arrive e left s).acc = s.acc := rfl
@[simp] theorem arrive_keys (e : Event) (left : List Event) : (arrive e left s).keys = s.keys := rfl
@[simp] theorem arrive_newp (e : Event) (left : List Event) : (arrive e left s).newp = s.newp := rfl
@[simp] theorem arrive_ready (e : Event) (left : List Event) : (arrive e left s).ready = s.ready := rfl
@[simp] theorem arrive_tcnt (e : Event) (left : List Event) : (arrive e left s).tcnt = s.tcnt := rfl
@[simp] theorem arrive_tcmp (e : Event) (left : List Event) : (arrive e left s).tcmp = s.tcmp := rfl
@[simp] theorem arrive_latch (e : Event) (left : List Event) : (arrive e left s).latch = s.latch := rfl
@[simp] theorem arrive_clk (e : Event) (left : List Event) : (arrive e left s).clk = s.clk := rfl
@[simp] theorem arrive_data (e : Event) (left : List Event) : (arrive e left s).data = dataAt e s := rfl
@[simp] theorem arrive_rly (e : Event) (left : List Event) : (arrive e left s).rly = s.rly := rfl
@[simp] theorem arrive_seq (e : Event) (left : List Event) : (arrive e left s).seq = s.seq := rfl
@[simp] theorem arrive_w (e : Event) (left : List Event) : (arrive e left s).w = s.w := rfl
@[simp] theorem arrive_cref (e : Event) (left : List Event) : (arrive e left s).cref = s.cref := rfl
@[simp] theorem arrive_vms (e : Event) (left : List Event) : (arrive e left s).vms = s.vms := rfl
@[simp] theorem arrive_dms (e : Event) (left : List Event) : (arrive e left s).dms = s.dms := rfl
@[simp] theorem arrive_diagReinit (e : Event) (left : List Event) : (arrive e left s).diagReinit = s.diagReinit := rfl
@[simp] theorem arrive_diagBadidx (e : Event) (left : List Event) : (arrive e left s).diagBadidx = s.diagBadidx := rfl
@[simp] theorem arrive_diagBadcmd (e : Event) (left : List Event) : (arrive e left s).diagBadcmd = s.diagBadcmd := rfl
@[simp] theorem arrive_pend (e : Event) (left : List Event) : (arrive e left s).pend = s.pend := rfl
@[simp] theorem arrive_rsp (e : Event) (left : List Event) : (arrive e left s).rsp = s.rsp := rfl
@[simp] theorem arrive_trace (e : Event) (left : List Event) : (arrive e left s).trace = .event e :: s.trace := rfl
@[simp] theorem arrive_inputs (e : Event) (left : List Event) : (arrive e left s).inputs = left := rfl
@[simp] theorem arrive_now (e : Event) (left : List Event) : (arrive e left s).now = s.now + 1 := rfl

end arrive

section expired

@[simp] theorem expired_cfg : (expired s).cfg = s.cfg := rfl
@[simp] theorem expired_active : (expired s).active = s.active := rfl
@[simp] theorem expired_phase : (expired s).phase = s.phase := rfl
@[simp] theorem expired_acc : (expired s).acc = s.acc := rfl
@[simp] theorem expired_keys : (expired s).keys = s.keys := rfl
@[simp] theorem expired_newp : (expired s).newp = s.newp := rfl
@[simp] theorem expired_ready : (expired s).ready = s.ready := rfl
@[simp] theorem expired_tcnt : (expired s).tcnt = s.tcnt := rfl
@[simp] theorem expired_tcmp : (expired s).tcmp = s.tcmp := rfl
@[simp] theorem expired_latch : (expired s).latch = s.latch := rfl
@[simp] theorem expired_clk : (expired s).clk = s.clk := rfl
@[simp] theorem expired_data : (expired s).data = s.data := rfl
@[simp] theorem expired_rly : (expired s).rly = s.rly := rfl
@[simp] theorem expired_seq : (expired s).seq = s.seq := rfl
@[simp] theorem expired_w : (expired s).w = 0 := rfl
@[simp] theorem expired_cref : (expired s).cref = s.cref := rfl
@[simp] theorem expired_vms : (expired s).vms = s.vms := rfl
@[simp] theorem expired_dms : (expired s).dms = s.dms := rfl
@[simp] theorem expired_diagReinit : (expired s).diagReinit = s.diagReinit := rfl
@[simp] theorem expired_diagBadidx : (expired s).diagBadidx = s.diagBadidx := rfl
@[simp] theorem expired_diagBadcmd : (expired s).diagBadcmd = s.diagBadcmd := rfl
@[simp] theorem expired_pend : (expired s).pend = s.pend := rfl
@[simp] theorem expired_rsp : (expired s).rsp = s.rsp := rfl
@[simp] theorem expired_trace : (expired s).trace = s.trace := rfl
@[simp] theorem expired_inputs : (expired s).inputs = s.inputs := rfl
@[simp] theorem expired_now : (expired s).now = s.now := rfl

end expired

end Sys2Proof.Machine
end

