-- ==== Sys2Proof/Laws/Ops.lean ====
section
/-! SUPPORT. One lemma for each shared operation that says what it does: resolving an index, the relay primitives read
back, entering a wait, the delay, the period, the phase dispatch. -/

namespace Sys2Proof.Machine

/-- Resolve gives the index and the state as they are, or relay 0 and the diagnostic (42_relay.md R163). -/
theorem resolve_cases (idx : BitVec 3) (s : State) :
    (idx.toNat < s.cfg.nrelays ∧ resolve idx s = (idx.toNat, s)) ∨
    (s.cfg.nrelays ≤ idx.toNat ∧ resolve idx s = (0, raiseDiag .badidx s)) := by
  unfold resolve
  split
  · exact .inl ⟨‹_›, rfl⟩
  · exact .inr ⟨Nat.le_of_not_lt ‹_›, rfl⟩

/-- With eight relays every index is valid (42_relay.md R163). -/
theorem resolve_of_eight (idx : BitVec 3) (s : State) (h : s.cfg.nrelays = 8) : resolve idx s = (idx.toNat, s) := by
  have := idx.isLt
  rcases resolve_cases idx s with ⟨_, h'⟩ | ⟨h', _⟩
  · exact h'
  · omega

/-- After RelayOpen(j) relay j's pin reads INVERT[j]. -/
theorem relayPin_relayOpen (s : State) (j : Nat) (h : j < s.rly.length) :
    relayPin (relayOpen j s) j = invertAt s.cfg j := by
  simp [relayPin, h]

/-- After RelayClose(j) relay j's pin reads the other level. -/
theorem relayPin_relayClose (s : State) (j : Nat) (h : j < s.rly.length) :
    relayPin (relayClose j s) j = !invertAt s.cfg j := by
  simp [relayPin, h]

/-- RelayOpen(j) leaves every other relay's pin. -/
theorem relayPin_relayOpen_ne (s : State) (j k : Nat) (h : k ≠ j) : relayPin (relayOpen j s) k = relayPin s k := by
  simp [relayPin, List.getElem?_set_ne (Ne.symm h)]

/-- RelayClose(j) leaves every other relay's pin. -/
theorem relayPin_relayClose_ne (s : State) (j k : Nat) (h : k ≠ j) : relayPin (relayClose j s) k = relayPin s k := by
  simp [relayPin, List.getElem?_set_ne (Ne.symm h)]

/-- Exactly one of IsOpen and IsClosed holds (42_relay.md R162). -/
theorem isClosed_eq_not_isOpen (s : State) (j : Nat) : isClosed s j = !isOpen s j := by
  simp [isClosed, isOpen, bne]

/-- A wait of 0 completes in the entering event (43_sequencer.md R185). -/
theorem enterWait_zero (q : BitVec 3) (f : State → State) (s : State) :
    enterWait q 0 f s = f { s with seq := q, w := 0 } := by
  simp [enterWait]

/-- A wait of at least 1 is entered (43_sequencer.md R185). -/
theorem enterWait_pos (q : BitVec 3) {n : Half} (hn : n ≠ 0) (f : State → State) (s : State) :
    enterWait q n f s = { s with seq := q, w := n } := by
  exact if_neg hn

/-- The saturating difference is the truncated difference of the numbers (00_scope.md R11). -/
theorem satSub_toNat (a b : Half) : (satSub a b).toNat = a.toNat - b.toNat := by
  unfold satSub
  split
  · exact BitVec.toNat_sub_of_le (BitVec.le_def.mpr ‹_›)
  · simp
    omega

/-- A period is between 1 and 65536. -/
theorem per_pos (c : Half) : 0 < per c := by
  unfold per
  split
  · omega
  · rename_i h
    have : c.toNat ≠ 0 := fun h0 => h (BitVec.eq_of_toNat_eq (by simpa using h0))
    omega

/-- A count below the period either stays below it after a tick or matches (40_decoder.md R103). -/
theorem tick_lt_per {n c : Half} (hn : n.toNat < per c) (hne : n + 1 ≠ c) : (n + 1).toNat < per c := by
  have h1 : (n + 1).toNat = (n.toNat + 1) % 65536 := by simp [BitVec.toNat_add]
  have h2 : (n + 1).toNat ≠ c.toNat := fun h => hne (BitVec.eq_of_toNat_eq h)
  have hlt := n.isLt
  have hclt := c.isLt
  unfold per at hn ⊢
  split at hn
  · simp only [*, if_true]; omega
  · simp only [*, if_false]; omega

/-- The advanced phase as a number (40_decoder.md R104); at most 32 phases fit the five bits. -/
theorem nextPhase_toNat {c : Config} (p : Phase) (h : c.phases ≤ 32) (hpos : 0 < c.phases) :
    (nextPhase c p).toNat = (p.toNat + 1) % c.phases := by
  have := Nat.mod_lt (p.toNat + 1) hpos
  simp [nextPhase]
  omega

end Sys2Proof.Machine
end

