-- ==== Sys2Proof/Laws/Observe.lean ====
section
/-! SUPPORT. What an instruction adds to the trace (20_memory.md R73): one lemma for each operation that writes several
items, and exec_trace, which says it of every instruction. -/

namespace Sys2Proof.Machine

/-- Complete(RELEASE) adds its two writes and the response. -/
theorem completeRelease_trace (s : State) : (completeRelease s).trace = (releaseItems s.cfg).reverse ++ s.trace := rfl

/-- Entering a wait adds what its completion adds, where the wait is 0. -/
theorem enterWait_trace {items : List Obs} (q : BitVec 3) (n : Half) {f : State → State} {s : State}
    (hf : (f { s with seq := q, w := n }).trace = items.reverse ++ s.trace) :
    (enterWait q n f s).trace = (if n = 0 then items else []).reverse ++ s.trace := by
  unfold enterWait
  split_ifs with h
  · exact hf
  · rfl

/-- Complete(DELAY) adds its write and what follows it in the event. -/
theorem completeDelay_trace (s : State) : (completeDelay s).trace = (delayItems s.cfg).reverse ++ s.trace := by
  rw [completeDelay, enterWait_trace _ _ (completeRelease_trace _)]
  simp [delayItems, closeItem]

/-- Complete(VALVE) adds its write and what follows it in the event. -/
theorem completeValve_trace (s : State) :
    (completeValve s).trace = (valveItems s.cfg (effDelay s.cref s.dms s.vms)).reverse ++ s.trace := by
  rw [completeValve, enterWait_trace _ _ (completeDelay_trace _)]
  simp [valveItems, openItem]

/-- Complete(PREP) adds its write and what follows it in the event. -/
theorem completePrep_trace (s : State) :
    (completePrep s).trace = (prepItems s.cfg s.vms (effDelay s.cref s.dms s.vms)).reverse ++ s.trace := by
  rw [completePrep, enterWait_trace _ _ (completeValve_trace _)]
  simp [prepItems, closeItem]

/-- CAPTURE adds its write and what follows it in the event. -/
theorem execCapture_trace {ref : Ref} {s t : State} (h : execCapture ref s = .next t) :
    t.trace = (captureItems s.cfg s.vms (effDelay ref s.dms s.vms)).reverse ++ s.trace := by
  cases h
  rw [enterWait_trace _ _ (completePrep_trace _)]
  simp [captureItems, closeItem]

/-- A phase operation adds its write. -/
theorem phaseAction_trace (op : PhaseOp) (s : State) :
    (phaseAction op s).trace = (phaseItems op).reverse ++ s.trace := by
  cases op <;> rfl

/-- Every instruction adds exactly its items. -/
theorem exec_trace {i : Instr} {s t : State} (h : exec i s = .next t) :
    t.trace = (itemsOf i s).reverse ++ s.trace := by
  cases i with
  | capture ref => exact execCapture_trace h
  | seqEndPrep => cases h; exact completePrep_trace _
  | seqEndValve => cases h; exact completeValve_trace _
  | seqEndDelay => cases h; exact completeDelay_trace _
  | ttMatch => cases h; rw [compareMatch, reArm_trace]; exact phaseAction_trace _ _
  | start => cases h; split_ifs <;> rfl
  | ropen idx | rclose idx | risopen idx | risclosed idx =>
    simp only [exec, execRopen, execRclose, execRisopen, execRisclosed] at h
    rcases resolve_cases idx s with ⟨_, hr⟩ | ⟨_, hr⟩ <;> rw [hr] at h <;> cases h <;> simp only [itemsOf, hr] <;> rfl
  | _ => cases h; rfl

/-- The arrival of an event changes no item of the instruction it selects. -/
theorem itemsOf_arrive (i : Instr) (e : Event) (left : List Event) (s : State) :
    itemsOf i (arrive e left s) = itemsOf i s := by
  have hr (idx : BitVec 3) : (resolve idx (arrive e left s)).1 = (resolve idx s).1 := by
    by_cases h : idx.toNat < s.cfg.nrelays <;> simp [resolve, h]
  cases i with
  | ropen idx | rclose idx | risopen idx | risclosed idx => simp only [itemsOf, hr]; rfl
  | _ => rfl

end Sys2Proof.Machine
end

