-- ==== Sys2Proof/Laws/PerInstr.lean ====
section
/-! SUPPORT. Statements made instruction by instruction. RoundTrip: the encoding of a well-formed instruction decodes to it. -/

namespace Sys2Proof.Laws.RoundTrip

/-- Decoding the command word of i, or the PHASE value of i, gives i. -/
def Statement (i : Instr) : Prop :=
  ∀ c : Config, c.wf = true → i.wf c.phases = true →
    (∀ w, encodeCommand i = some w → decodeCommand w = i) ∧
    (∀ p, encodePhase c.phases i = some p → decodePhase c.phases p = .ok i)

/-- An instruction with one command word, checked by evaluation. -/
theorem of_word {i : Instr} {w : Word} (he : encodeCommand i = some w) (hp : ∀ n, encodePhase n i = none)
    (hd : decodeCommand w = i) : Statement i := by
  intro c _ _
  refine ⟨fun v hv => ?_, fun p h => by rw [hp] at h; cases h⟩
  rw [he] at hv
  cases hv
  exact hd

/-- A micro-operation with neither a word nor a PHASE value. -/
theorem of_none {i : Instr} (he : encodeCommand i = none) (hp : ∀ n, encodePhase n i = none) : Statement i := by
  intro c _ _
  exact ⟨fun v hv => absurd (he.symm.trans hv) (by simp), fun p h => absurd ((hp _).symm.trans h) (by simp)⟩

theorem start : Statement .start := of_word rfl (fun _ => rfl) (by decide)
theorem stop : Statement .stop := of_word rfl (fun _ => rfl) (by decide)
theorem getheld : Statement .getheld := of_word rfl (fun _ => rfl) (by decide)
theorem getpressed : Statement .getpressed := of_word rfl (fun _ => rfl) (by decide)
theorem getstatus : Statement .getstatus := of_word rfl (fun _ => rfl) (by decide)

theorem ropen (idx : BitVec 3) : Statement (.ropen idx) :=
  of_word rfl (fun _ => rfl) (by
    rw [decode_of_hit (r := rows[4]) (by simp [rows]) (by simp only [Row.hits, rows]; exact beq_iff_eq.mpr (hit_relay 5 idx))]
    simp [rows, packCommand_idx])
theorem rclose (idx : BitVec 3) : Statement (.rclose idx) :=
  of_word rfl (fun _ => rfl) (by
    rw [decode_of_hit (r := rows[5]) (by simp [rows]) (by simp only [Row.hits, rows]; exact beq_iff_eq.mpr (hit_relay 6 idx))]
    simp [rows, packCommand_idx])
theorem risopen (idx : BitVec 3) : Statement (.risopen idx) :=
  of_word rfl (fun _ => rfl) (by
    rw [decode_of_hit (r := rows[6]) (by simp [rows]) (by simp only [Row.hits, rows]; exact beq_iff_eq.mpr (hit_relay 7 idx))]
    simp [rows, packCommand_idx])
theorem risclosed (idx : BitVec 3) : Statement (.risclosed idx) :=
  of_word rfl (fun _ => rfl) (by
    rw [decode_of_hit (r := rows[7]) (by simp [rows]) (by simp only [Row.hits, rows]; exact beq_iff_eq.mpr (hit_relay 8 idx))]
    simp [rows, packCommand_idx])
theorem setv (ms : Half) : Statement (.setv ms) :=
  of_word rfl (fun _ => rfl) (by
    rw [decode_of_hit (r := rows[8]) (by simp [rows]) (by simp only [Row.hits, rows]; exact beq_iff_eq.mpr (hit_duration 9 ms))]
    simp [rows, packCommand_imm])
theorem setd (ms : Half) : Statement (.setd ms) :=
  of_word rfl (fun _ => rfl) (by
    rw [decode_of_hit (r := rows[9]) (by simp [rows]) (by simp only [Row.hits, rows]; exact beq_iff_eq.mpr (hit_duration 10 ms))]
    simp [rows, packCommand_imm])
theorem capture (ref : Ref) : Statement (.capture ref) := by
  cases ref <;> exact of_word rfl (fun _ => rfl) (by decide)

theorem illegal (word : Word) : Statement (.illegal word) := by
  intro c _ hwf
  refine ⟨fun w hw => ?_, fun p h => by cases h⟩
  cases hw
  rcases decode_cases word with ⟨r, hr, hh, _⟩ | ⟨_, h⟩
  · simp [Instr.wf, isCommandWord_of_hit hr hh] at hwf
  · exact h

/-- A phase operation, checked for 18 and for 26 phases. -/
theorem of_phase {i : Instr} (he : encodeCommand i = none)
    (h18 : i.wf 18 = true → ∀ p, encodePhase 18 i = some p → decodePhase 18 p = .ok i)
    (h26 : i.wf 26 = true → ∀ p, encodePhase 26 i = some p → decodePhase 26 p = .ok i) : Statement i := by
  intro c hc hwf
  refine ⟨fun w h => absurd (he.symm.trans h) (by simp), ?_⟩
  rcases phases_of_wf hc with ⟨_, h⟩ | ⟨_, h⟩ <;> rw [h] at hwf ⊢
  · exact h18 hwf
  · exact h26 hwf

theorem phLatch : Statement .phLatch := of_phase rfl (by decide) (by decide)
theorem phUnlatch : Statement .phUnlatch := of_phase rfl (by decide) (by decide)
theorem phPublish : Statement .phPublish := of_phase rfl (by decide) (by decide)
theorem phClkhi (p : Phase) : Statement (.phClkhi p) :=
  of_phase rfl (by revert p; decide) (by revert p; decide)
theorem phSample (p : Phase) : Statement (.phSample p) :=
  of_phase rfl (by revert p; decide) (by revert p; decide)

theorem ttIdle : Statement .ttIdle := of_none rfl (fun _ => rfl)
theorem ttCount : Statement .ttCount := of_none rfl (fun _ => rfl)
theorem ttMatch : Statement .ttMatch := of_none rfl (fun _ => rfl)
theorem msIdle : Statement .msIdle := of_none rfl (fun _ => rfl)
theorem msCount : Statement .msCount := of_none rfl (fun _ => rfl)
theorem seqEndPrep : Statement .seqEndPrep := of_none rfl (fun _ => rfl)
theorem seqEndValve : Statement .seqEndValve := of_none rfl (fun _ => rfl)
theorem seqEndDelay : Statement .seqEndDelay := of_none rfl (fun _ => rfl)
theorem seqEndRelease : Statement .seqEndRelease := of_none rfl (fun _ => rfl)

end Sys2Proof.Laws.RoundTrip
end

