-- ==== Sys2Proof/Laws/Step.lean ====
section
/-! SUPPORT. What a step can do, said once: which event it takes, and that it runs the instruction the event selects. -/

namespace Sys2Proof.Machine

/-- Without a hold the first input is taken. -/
@[simp] theorem takeInput_cons (e : Event) (rest : List Event) : takeInput false (e :: rest) = some (e, rest) := by
  cases e <;> rfl

/-- A tick at the head is taken, held or not. -/
@[simp] theorem takeInput_tick (held : Bool) (t : Tick) (rest : List Event) :
    takeInput held (.tick t :: rest) = some (.tick t, rest) := rfl

/-- With no input nothing is taken. -/
@[simp] theorem takeInput_nil (held : Bool) : takeInput held [] = none := rfl

/-- While the host is held its commands wait in place and the first tick is taken (43_sequencer.md R182). -/
theorem takeInput_held (cs : List Word) (t : Tick) (rest : List Event) :
    takeInput true (cs.map .host ++ .tick t :: rest) = some (.tick t, cs.map .host ++ rest) := by
  induction cs with
  | nil => rfl
  | cons c cs ih => simp [takeInput, ih]

/-- While the host is held, commands alone yield no input. -/
theorem takeInput_held_none (cs : List Word) : takeInput true (cs.map .host) = none := by
  induction cs with
  | nil => rfl
  | cons c cs ih => simp [takeInput, ih]

/-- While the host is held, what is taken is a tick. -/
theorem takeInput_held_tick {es : List Event} {e : Event} {left : List Event}
    (h : takeInput true es = some (e, left)) : ∃ t, e = .tick t := by
  induction es generalizing e left with
  | nil => cases h
  | cons x rest ih =>
    cases x with
    | tick t => simp at h; exact ⟨t, h.1.symm⟩
    | host c =>
      simp only [takeInput, Option.map_eq_some_iff, Prod.exists] at h
      obtain ⟨e', left', h', heq⟩ := h
      cases heq
      exact ih h'

/-- The event a step takes, where the first input may be taken. -/
theorem nextEvent_cons {s : State} {e : Event} {rest : List Event} (hi : s.inputs = e :: rest) (hp : s.pend = false) :
    nextEvent s = (e, rest) := by
  simp [nextEvent, hi, hp]

/-- The event a step takes, where the first input is a tick. -/
theorem nextEvent_tick {s : State} {t : Tick} {rest : List Event} (hi : s.inputs = .tick t :: rest) :
    nextEvent s = (.tick t, rest) := by
  simp [nextEvent, hi]

/-- Inversion of a step: a next state comes from the instruction that the event selects, run in the state the event
arrived in. -/
theorem step_cases {s t : State} (h : step s = .next t) :
    s.cfg.wf = true ∧ ∃ i, select (nextEvent s).1 (arrive (nextEvent s).1 (nextEvent s).2 s) = .ok i ∧
      exec i (arrive (nextEvent s).1 (nextEvent s).2 s) = .next t := by
  unfold step at h
  split at h
  · refine ⟨‹_›, ?_⟩
    unfold runEvent at h
    split at h
    · exact ⟨_, ‹_›, h⟩
    · cases h
  · cases h

/-- A step in a well-formed configuration. -/
theorem step_eq {s : State} (hc : s.cfg.wf = true) :
    step s = runEvent (nextEvent s).1 (arrive (nextEvent s).1 (nextEvent s).2 s) := by
  simp [step, hc]

/-- A TTICK runs the micro-operation that ACTIVE, TCNT and TCMP select. -/
theorem runEvent_timer (b : Bool) (s : State) :
    runEvent (.tick (.timer b)) s = exec (ttickOp s.active s.tcnt s.tcmp) s := rfl

/-- A HOST event runs the command its word spells. -/
theorem runEvent_host (c : Word) (s : State) : runEvent (.host c) s = exec (decodeCommand c) s := rfl

/-- What an MSTICK selects (43_sequencer.md R186). -/
theorem mstickOp_cases (q : BitVec 3) (w : Half) :
    (q.toNat = 0 ∧ mstickOp q w = .ok .msIdle) ∨
    (5 ≤ q.toNat ∧ mstickOp q w = .error .seqUndefined) ∨
    (1 ≤ q.toNat ∧ q.toNat ≤ 4 ∧ w.toNat = 0 ∧ mstickOp q w = .error .waitUnderflow) ∨
    (1 ≤ q.toNat ∧ q.toNat ≤ 4 ∧ 2 ≤ w.toNat ∧ mstickOp q w = .ok .msCount) ∨
    (w.toNat = 1 ∧ q.toNat = 1 ∧ mstickOp q w = .ok .seqEndPrep) ∨
    (w.toNat = 1 ∧ q.toNat = 2 ∧ mstickOp q w = .ok .seqEndValve) ∨
    (w.toNat = 1 ∧ q.toNat = 3 ∧ mstickOp q w = .ok .seqEndDelay) ∨
    (w.toNat = 1 ∧ q.toNat = 4 ∧ mstickOp q w = .ok .seqEndRelease) := by
  unfold mstickOp
  split_ifs with h1 h2 h3 h4 h5 h6 h7 <;> simp <;> omega

end Sys2Proof.Machine
end

