-- ==== Sys2Proof/Laws/Run.lean ====
section
/-! SUPPORT. Runs: a run in two parts, and a run over a list of ticks one tick at a time. -/

namespace Sys2Proof.Machine

/-- A run of a + b steps is a run of a steps and then one of b. -/
theorem run_add (a b : Nat) (s t : State) (h : Sys2Proof.core.run a s = .next t) :
    Sys2Proof.core.run (a + b) s = Sys2Proof.core.run b t := by
  induction a generalizing s with
  | zero =>
    cases h
    rw [Nat.zero_add]
  | succ a ih =>
    rw [Nat.add_right_comm]
    simp only [Host.Core.run] at h ⊢
    cases hs : Sys2Proof.core.step s with
    | next u => rw [hs] at h; exact ih u h
    | fault r => rw [hs] at h; cases h
    | refused r => rw [hs] at h; cases h

/-- One step is a run of length 1. -/
theorem run_one {s t : State} (h : step s = .next t) : Sys2Proof.core.run 1 s = .next t := by
  have h' : Sys2Proof.core.step s = .next t := h
  simp [Host.Core.run, h']

/-- A run, extended by one step at its end. -/
theorem run_snoc {n : Nat} {s t u : State} (h : Sys2Proof.core.run n s = .next t) (hs : step t = .next u) :
    Sys2Proof.core.run (n + 1) s = .next u := by
  rw [run_add n 1 s t h, run_one hs]

/-- n + 1 TTICKs are n TTICKs and one more, with the level of the last one. -/
theorem tticks_succ (n : Nat) (d : Nat → Bool) : tticks (n + 1) d = tticks n d ++ [Event.ttick (d (n + 1))] := by
  simp [tticks, List.range_succ]

/-- n + 1 MSTICKs are n MSTICKs and one more. -/
theorem msticks_succ (n : Nat) : msticks (n + 1) = msticks n ++ [Event.mstick] := by
  simp [msticks, List.replicate_succ']

end Sys2Proof.Machine
end

