-- ==== Sys2Proof/Tests/Slice0.lean ====
section
/-! SUPPORT. Tests of one step each, with values taken from 95_test_vectors.md (V) or worked out from the rule named, and
for every statement with hypotheses a concrete state and operands that meet them all. -/

namespace Sys2Proof.Machine

/-! ### Helpers -/

/-- A view of the next state, none where there is none. -/
def view {α : Type} (f : State → α) : Result → Option α
  | .next t => some (f t)
  | .fault _ => none
  | .refused _ => none

/-- The fault, if the machine stops with one. -/
def faultSeen : Result → Option Fault
  | .fault r => some r
  | .next _ => none
  | .refused _ => none

/-- The refusal, if the machine refuses. -/
def refusalSeen : Result → Option Refusal
  | .refused r => some r
  | .next _ => none
  | .fault _ => none

/-- The 12-bit build with eight relays of V 2.10, relay 1 inverted. -/
def cfg12 : Config :=
  { Config.vectors with nbits := 12, invert := [false, true, false, false, false, false, false, false] }

/-- V 2.7: three relays, relay 1 inverted, with the given levels. -/
def relays (a b c : Bool) : State :=
  { State.resetFor { Config.vectors with invert := [false, true, false] } with rly := [a, b, c] }

/-- A running decoder at PHASE p with the count one tick before the match. -/
def atMatch (p : Phase) (tcmp : Half) : State :=
  { State.reset with active := true, phase := p, tcnt := tcmp - 1, tcmp := tcmp }

/-- A capture in wait state q with n left: the cue relay is closed. -/
def capturing (q : BitVec 3) (n : Half) : State :=
  { State.reset with pend := true, seq := q, w := n, vms := 100, dms := 50, rly := [false, true, false] }

/-- V P3 after its lines 1 and 2: VMS 100, DMS 250. -/
def captureStart : State := { State.reset with vms := 100, dms := 250 }

/-- The configuration in which every wait of the sequencer is 0. -/
def cfgZero : Config := { Config.vectors with tPrepMs := 0, tRelMs := 0 }

/-! ### Well-formedness -/

theorem test_wf_illegal_of_command_refused : (Instr.illegal 0x10000000).wf 18 = false := by decide
theorem test_wf_illegal_accepted : (Instr.illegal 0x10000001).wf 18 = true := by decide
theorem test_wf_clkhi_odd_refused : (Instr.phClkhi 3).wf 18 = false := by decide
theorem test_wf_clkhi_zero_refused : (Instr.phClkhi 0).wf 18 = false := by decide
theorem test_wf_clkhi_high_refused : (Instr.phClkhi 18).wf 18 = false := by decide
theorem test_wf_clkhi_edges_accepted : (Instr.phClkhi 2).wf 18 = true ∧ (Instr.phClkhi 16).wf 18 = true := by decide
theorem test_wf_sample_even_refused : (Instr.phSample 4).wf 18 = false := by decide
theorem test_wf_sample_one_refused : (Instr.phSample 1).wf 18 = false := by decide
theorem test_wf_sample_publish_refused : (Instr.phSample 17).wf 18 = false := by decide
theorem test_wf_sample_edges_accepted : (Instr.phSample 3).wf 18 = true ∧ (Instr.phSample 15).wf 18 = true := by decide
theorem test_cfg_vectors_accepted : Config.vectors.wf = true ∧ cfg12.wf = true ∧ cfgZero.wf = true := by decide
theorem test_cfg_nbits_refused : { Config.vectors with nbits := 10 }.wf = false := by decide
theorem test_cfg_no_relays_refused : { Config.vectors with invert := [] }.wf = false := by decide
theorem test_cfg_nine_relays_refused : { Config.vectors with invert := List.replicate 9 false }.wf = false := by decide
theorem test_cfg_index_refused : { Config.vectors with relIdx := 3 }.wf = false := by decide
theorem test_cfg_equal_indices_refused : { Config.vectors with relIdx := 0 }.wf = false := by decide

/-! ### Decoding: V 2.1, and 30_encoding.md R90, R91 -/

theorem test_decode_start : decodeCommand 0x10000000 = .start := by decide
theorem test_decode_stop : decodeCommand 0x20000000 = .stop := by decide
theorem test_decode_getheld : decodeCommand 0x30000000 = .getheld := by decide
theorem test_decode_getpressed : decodeCommand 0x40000000 = .getpressed := by decide
theorem test_decode_ropen : decodeCommand 0x52000000 = .ropen 2 := by decide
theorem test_decode_rclose : decodeCommand 0x67000000 = .rclose 7 := by decide
theorem test_decode_risopen : decodeCommand 0x70000000 = .risopen 0 := by decide
theorem test_decode_risclosed : decodeCommand 0x81000000 = .risclosed 1 := by decide
theorem test_decode_setv : decodeCommand 0x90000064 = .setv 100 := by decide
theorem test_decode_setd : decodeCommand 0xA000FFFF = .setd 65535 := by decide
theorem test_decode_capture :
    decodeCommand 0xB0000000 = .capture .fromOpen ∧ decodeCommand 0xB8000000 = .capture .fromClose := by decide
theorem test_decode_getstatus : decodeCommand 0xC0000000 = .getstatus := by decide
theorem test_decode_illegal_fields :
    decodeCommand 0x10000001 = .illegal 0x10000001 ∧ decodeCommand 0x58000000 = .illegal 0x58000000 ∧
    decodeCommand 0x90010000 = .illegal 0x90010000 ∧ decodeCommand 0xB0000001 = .illegal 0xB0000001 ∧
    decodeCommand 0xB1000000 = .illegal 0xB1000000 := by decide
theorem test_decode_illegal_ops :
    decodeCommand 0x00000000 = .illegal 0 ∧ decodeCommand 0xD0000000 = .illegal 0xD0000000 ∧
    decodeCommand 0xE0000000 = .illegal 0xE0000000 ∧ decodeCommand 0xF0000000 = .illegal 0xF0000000 := by decide
theorem test_decode_phase_latch : decodePhase 18 0 = .ok .phLatch := by rfl
theorem test_decode_phase_unlatch : decodePhase 18 1 = .ok .phUnlatch := by rfl
theorem test_decode_phase_clkhi : decodePhase 18 2 = .ok (.phClkhi 2) ∧ decodePhase 18 16 = .ok (.phClkhi 16) := ⟨rfl, rfl⟩
theorem test_decode_phase_sample : decodePhase 18 3 = .ok (.phSample 3) ∧ decodePhase 18 15 = .ok (.phSample 15) := ⟨rfl, rfl⟩
theorem test_decode_phase_publish : decodePhase 18 17 = .ok .phPublish ∧ decodePhase 26 25 = .ok .phPublish := ⟨rfl, rfl⟩
theorem test_decode_phase_rejected : decodePhase 18 18 = .error .phaseOutOfRange := by rfl
theorem test_select_tt_idle : ttickOp false 5 6 = .ttIdle := by decide
theorem test_select_tt_count : ttickOp true 5 7 = .ttCount := by decide
theorem test_select_tt_match : ttickOp true 6 7 = .ttMatch ∧ ttickOp true 65535 0 = .ttMatch := by decide
theorem test_select_ms_idle : mstickOp 0 0 = .ok .msIdle := by rfl
theorem test_select_ms_count : mstickOp 1 5 = .ok .msCount ∧ mstickOp 4 2 = .ok .msCount := ⟨rfl, rfl⟩
theorem test_select_seq_end_prep : mstickOp 1 1 = .ok .seqEndPrep := by rfl
theorem test_select_seq_end_valve : mstickOp 2 1 = .ok .seqEndValve := by rfl
theorem test_select_seq_end_delay : mstickOp 3 1 = .ok .seqEndDelay := by rfl
theorem test_select_seq_end_release : mstickOp 4 1 = .ok .seqEndRelease := by rfl
theorem test_select_rejected : mstickOp 5 1 = .error .seqUndefined ∧ mstickOp 1 0 = .error .waitUnderflow := ⟨rfl, rfl⟩
theorem test_encode_setd : encodeCommand (.setd 250) = some 0xA00000FA := by decide
theorem test_encode_capture : encodeCommand (.capture .fromClose) = some 0xB8000000 := by decide
theorem test_table_word : decodeTableWord 32 0x52000000 = some (.ropen 2) ∧ decodeTableWord 8 17 = some .phPublish ∧
    decodeTableWord 8 18 = none ∧ decodeTableWord 16 0 = none := by decide

/-! ### Commands -/

/-- V 2.2: START from reset. -/
theorem test_start : view (fun t => (t.active, t.phase, t.tcnt, t.tcmp, t.rsp)) (exec .start State.reset) =
    some (true, 0, 0, 10, 0) := by decide
/-- V 2.2: START while running raises REINIT and leaves PHASE and KEYS. -/
theorem test_start_rejected :
    view (fun t => (t.active, t.phase, t.keys, t.diagReinit))
      (exec .start { State.reset with active := true, phase := 7, keys := 0x11 }) = some (true, 7, 0x11, true) := by decide
/-- V 2.2: STOP leaves LATCH and PHASE. -/
theorem test_stop : view (fun t => (t.active, t.phase, t.latch, t.rsp))
    (exec .stop { State.reset with active := true, phase := 1, latch := true }) = some (false, 1, true, 0) := by decide
/-- V 2.6. -/
theorem test_getheld : view (fun t => (t.rsp, t.newp))
    (exec .getheld { State.reset with keys := 0x11, newp := 0x10 }) = some (0x11, 0x10) := by decide
/-- V 2.6. -/
theorem test_getpressed : view (fun t => (t.rsp, t.newp))
    (exec .getpressed { State.reset with newp := 0x11 }) = some (0x11, 0) := by decide
/-- V 2.7: ROPEN 3 with three relays opens relay 0. -/
theorem test_ropen_bad_index : view (fun t => (t.rly, t.rsp, t.diagBadidx)) (exec (.ropen 3) (relays true false false)) =
    some ([false, false, false], 0, true) := by decide
/-- V 2.7: an inverted relay opens to level 1 (P2 line 4). -/
theorem test_ropen_inverted : view (fun t => (t.rly, t.diagBadidx)) (exec (.ropen 1) (relays true false false)) =
    some ([true, true, false], false) := by decide
/-- V 2.7. -/
theorem test_rclose : view (fun t => t.rly) (exec (.rclose 0) (relays false true false)) =
    some [true, true, false] := by decide
/-- V 2.7: an inverted relay closes to level 0. -/
theorem test_rclose_inverted : view (fun t => t.rly) (exec (.rclose 1) (relays true true false)) =
    some [true, false, false] := by decide
/-- V 2.7: RISOPEN 7 reads relay 0, which is closed. -/
theorem test_risopen_bad_index : view (fun t => (t.rsp, t.diagBadidx)) (exec (.risopen 7) (relays true false false)) =
    some (0, true) := by decide
/-- V P2 line 5. -/
theorem test_risopen_inverted : view (fun t => t.rsp) (exec (.risopen 1) (relays true true false)) = some 1 := by decide
/-- V 2.7. -/
theorem test_risclosed : view (fun t => (t.rsp, t.diagBadidx)) (exec (.risclosed 1) (relays true false false)) =
    some (1, false) := by decide
/-- V P3 line 1. -/
theorem test_setv : view (fun t => (t.vms, t.dms)) (exec (.setv 100) State.reset) = some (100, 0) := by decide
/-- V P3 line 2. -/
theorem test_setd : view (fun t => (t.vms, t.dms)) (exec (.setd 250) State.reset) = some (0, 250) := by decide
/-- V P3, t = 0: relays [valve, cue, rel] = [0,1,0], PREP, 20. -/
theorem test_capture : view (fun t => (t.rly, t.seq, t.w, t.cref, t.pend)) (exec (.capture .fromClose) State.reset) =
    some ([false, true, false], 1, 20, .fromClose, true) := by decide
/-- V 2.9: with every wait 0 the capture is one event, its pin writes in order. -/
theorem test_capture_zero_waits :
    view (fun t => (t.seq, t.pend, t.trace.reverse)) (exec (.capture .fromOpen) (State.resetFor cfgZero)) =
      some (0, false, [.pin (.rly 1) true, .pin (.rly 0) true, .pin (.rly 0) false, .pin (.rly 2) true,
        .pin (.rly 2) false, .pin (.rly 1) false, .response 0]) := by decide
/-- V 2.10: running, published, REINIT. -/
theorem test_getstatus : view (fun t => (t.rsp, t.diagReinit))
    (exec .getstatus { State.reset with active := true, ready := true, diagReinit := true }) =
    some (0x00200103, false) := by decide
/-- V 2.10: the 12-bit build with eight relays. -/
theorem test_getstatus_build : view (fun t => t.rsp) (exec .getstatus (State.resetFor cfg12)) = some 0x00710000 := by decide
/-- V 2.10. -/
theorem test_illegal : view (fun t => (t.rsp, t.diagBadcmd, t.diagReinit)) (exec (.illegal 0xF0000000) State.reset) =
    some (0, true, false) := by decide

/-! ### Micro-operations -/

/-- V 2.4, tick 10. -/
theorem test_ph_latch : view (fun t => (t.latch, t.acc)) (exec .phLatch { State.reset with acc := 0x11 }) =
    some (true, 0) := by decide
/-- V 2.4, tick 12. -/
theorem test_ph_unlatch : view (fun t => (t.latch, t.acc)) (exec .phUnlatch { State.reset with latch := true, acc := 3 }) =
    some (false, 3) := by decide
/-- V 2.4, tick 14. -/
theorem test_ph_clkhi : view (fun t => t.clk) (exec (.phClkhi 2) State.reset) = some true := by decide
/-- V 2.4, tick 32: bit 4, DATA 0. -/
theorem test_ph_sample_pressed :
    view (fun t => (t.acc, t.clk)) (exec (.phSample 11) { State.reset with acc := 1, clk := true, data := false }) =
      some (0x11, false) := by decide
/-- V 2.4, tick 20: bit 1, DATA 1. -/
theorem test_ph_sample_released :
    view (fun t => (t.acc, t.clk)) (exec (.phSample 5) { State.reset with acc := 1, clk := true, data := true }) =
      some (1, false) := by decide
/-- V 2.5, row "0x0F, 0x01, 0xF0": bit 7 sampled pressed. -/
theorem test_ph_publish :
    view (fun t => (t.keys, t.newp, t.ready, t.clk))
      (exec .phPublish { State.reset with keys := 0x0F, newp := 1, acc := 0x70, clk := true, data := false }) =
      some (0xF0, 0xF1, true, false) := by decide
/-- V 2.5, row "0x40, 0x40, 0x00": NEWP is sticky. -/
theorem test_ph_publish_sticky :
    view (fun t => (t.keys, t.newp)) (exec .phPublish { State.reset with keys := 0x40, newp := 0x40, data := true }) =
      some (0, 0x40) := by decide
/-- V 2.3, row 1. -/
theorem test_tt_idle : view (fun t => (t.tcnt, t.phase, t.trace))
    (step { State.reset with tcnt := 5, tcmp := 6, inputs := [.ttick true] }) =
    some (5, 0, [.event (.ttick true)]) := by decide
/-- V 2.3, row 2. -/
theorem test_tt_count : view (fun t => (t.tcnt, t.phase))
    (step { State.reset with active := true, tcnt := 5, tcmp := 7, inputs := [.ttick true] }) = some (6, 0) := by decide
/-- V 2.3, row 5: PHASE 17 publishes, wraps to 0 and arms T_POLL. -/
theorem test_tt_match_publish : view (fun t => (t.tcnt, t.phase, t.tcmp, t.ready)) (exec .ttMatch (atMatch 17 2)) =
    some (0, 0, 10, true) := by decide
/-- V 2.3, row 4: PHASE 0 latches, advances to 1 and arms T_BIT. -/
theorem test_tt_match_latch : view (fun t => (t.tcnt, t.phase, t.tcmp, t.latch)) (exec .ttMatch (atMatch 0 10)) =
    some (0, 1, 2, true) := by decide
/-- V 2.9, row 1. -/
theorem test_ms_idle : view (fun t => (t.seq, t.w)) (step { State.reset with inputs := [.mstick] }) = some (0, 0) := by decide
/-- V 2.9, row 2. -/
theorem test_ms_count : view (fun t => (t.seq, t.w)) (step { capturing 1 5 with inputs := [.mstick] }) =
    some (1, 4) := by decide
/-- V 2.9, row 3. -/
theorem test_seq_end_prep : view (fun t => (t.rly, t.seq, t.w)) (step { capturing 1 1 with inputs := [.mstick] }) =
    some ([true, true, false], 2, 100) := by decide
/-- V 2.9, row 4: the effective delay is 0, so the release relay closes in the same event. -/
theorem test_seq_end_valve : view (fun t => (t.rly, t.seq, t.w))
    (step { capturing 2 1 with rly := [true, true, false], inputs := [.mstick] }) =
    some ([false, true, true], 4, 30) := by decide
/-- V 2.9, row 5. -/
theorem test_seq_end_delay : view (fun t => (t.rly, t.seq, t.w)) (step { capturing 3 1 with inputs := [.mstick] }) =
    some ([false, true, true], 4, 30) := by decide
/-- V 2.9, row 6. -/
theorem test_seq_end_release : view (fun t => (t.rly, t.seq, t.w, t.pend, t.rsp))
    (step { capturing 4 1 with rly := [false, true, true], inputs := [.mstick] }) =
    some ([false, false, false], 0, 0, false, 0) := by decide

/-! ### Operands, key view and assembler -/

/-- V 2.8. -/
theorem test_eff_delay : effDelay .fromOpen 250 100 = 150 ∧ effDelay .fromOpen 50 100 = 0 ∧
    effDelay .fromOpen 101 100 = 1 ∧ effDelay .fromClose 250 100 = 250 ∧ effDelay .fromClose 0 65535 = 0 := by decide
/-- V 2.6. -/
theorem test_key_predicates : key .a 0x11 = true ∧ key .up 0x11 = true ∧ key .b 0x11 = false ∧ key .right 0x80 = true ∧
    key .left 0x80 = false ∧ key .l 0x0F00 = true ∧ anyPressed 8 0 = false ∧ anyPressed 8 0x11 = true := by decide
/-- V P3: CAPT 100, 250, from_open. -/
theorem test_assemble_capt : assembleLine "CAPT 100, 250, from_open ; a capture".toList =
    some [.issue 0x90000064, .issue 0xA00000FA, .issue 0xB0000000] := by decide
/-- 30_encoding.md R92: an operand out of its range is refused; `.word` takes any word. -/
theorem test_assemble_range : assembleLine "ROPEN 8".toList = none ∧
    assembleLine ".word 0xF0000000".toList = some [.issue 0xF0000000] := by decide
/-- 30_encoding.md R93: RTOGGLE 2. -/
theorem test_assemble_rtoggle : assembleLine "RTOGGLE 2".toList =
    some [.issue 0x72000000, .byResponse 0x62000000 0x52000000] := by decide

/-! ### Stops of the step, and the host's words -/

theorem test_step_bad_configuration :
    refusalSeen (step (State.resetFor { Config.vectors with nbits := 10 })) = some .badConfiguration := by decide
theorem test_step_seq_undefined : faultSeen (step { capturing 5 1 with inputs := [.mstick] }) = some .seqUndefined := by decide
theorem test_step_wait_underflow : faultSeen (step { capturing 1 0 with inputs := [.mstick] }) = some .waitUnderflow := by decide
/-- 43_sequencer.md R182: a STOP waits while a capture runs, and the tick behind it goes ahead. -/
theorem test_step_host_held : view (fun t => (t.inputs, t.w))
    (step { capturing 1 5 with inputs := [.host 0x20000000, .mstick] }) = some ([.host 0x20000000], 4) := by decide
theorem test_fetch_word_command : view (fun t => t.vms) (step (State.reset.withFetchWord 32 0x90000064)) =
    some 100 := by decide
theorem test_fetch_word_phase : view (fun t => (t.phase, t.clk)) (step (State.reset.withFetchWord 8 2)) =
    some (3, true) := by decide

/-! ### Witnesses: for each statement with hypotheses, a concrete input that meets them together -/

/-- Reset meets the invariant. -/
theorem test_inv_reset : StateInv State.reset := by constructor <;> decide
/-- The inverted relays, all open, of V P2. -/
theorem test_inv_relays : StateInv (relays false true false) := by constructor <;> decide
/-- The 12-bit build at its last phase. -/
theorem test_inv_last_phase :
    StateInv { State.resetFor cfg12 with active := true, phase := 25, tcnt := 1, tcmp := 2, keys := 0xFFF, acc := 0x7FF } := by
  constructor <;> decide
/-- Captures in the first and the last wait, with the least to wait. -/
theorem test_inv_capturing : StateInv (capturing 1 1) ∧ StateInv (capturing 4 30) := by
  constructor <;> constructor <;> decide
/-- The start of the capture of V P3. -/
theorem test_inv_capture_start : StateInv captureStart := by constructor <;> decide
/-- PinsAgree with a recorded write, and at reset. -/
theorem test_pins_agree : PinsAgree State.reset ∧
    PinsAgree { State.reset with latch := true, trace := [.pin .latch true, .event (.ttick true)] } := by
  constructor <;> constructor <;> decide

theorem test_witness_DecodeAndEncodeCommandsAreInverse :
    Config.vectors.wf = true ∧ (Instr.setv 65535).wf Config.vectors.phases = true ∧
    encodeCommand (.setv 65535) = some 0x9000FFFF ∧ (Instr.illegal 0).wf Config.vectors.phases = true ∧
    encodeCommand (.illegal 0) = some 0 := by decide
/-- Each clause at a bound of its range, in both builds. -/
theorem test_witness_PhaseSelectsItsOperation : Config.vectors.wf = true ∧ cfg12.wf = true ∧
    (2#5).toNat % 2 = 0 ∧ (16#5).toNat = Config.vectors.phases - 2 ∧ (24#5).toNat = cfg12.phases - 2 ∧
    (3#5).toNat % 2 = 1 ∧ (15#5).toNat = Config.vectors.phases - 3 ∧ (23#5).toNat = cfg12.phases - 3 ∧
    (17#5).toNat = Config.vectors.phases - 1 ∧ (25#5).toNat = cfg12.phases - 1 := by decide
theorem test_witness_TicksSelectByRegisters :
    ((65535#16).toNat + 1) % 65536 = (0#16).toNat ∧ ((5#16).toNat + 1) % 65536 ≠ (7#16).toNat ∧
    1 ≤ (1#3).toNat ∧ (4#3).toNat ≤ 4 ∧ 2 ≤ (2#16).toNat := by decide
theorem test_witness_StopOnlyDisablesTheTimer : State.reset.active = false := by decide
/-- GETHELD in the 12-bit build with every key held: bits 31:12 of the response are 0. -/
theorem test_witness_GetheldReturnsKeys :
    view (fun t => t.rsp.getLsbD 12) (exec .getheld { State.resetFor cfg12 with keys := 0xFFF }) = some false := by decide
/-- A publication by PH_PUBLISH, one by TT_MATCH, an accepted START and a step of neither kind. -/
theorem test_witness_NewPressesAccumulateRisingEdges :
    (view (fun _ => true) (exec .phPublish State.reset) = some true) ∧
    phaseOp (atMatch 17 2).cfg.phases (atMatch 17 2).phase = .publish ∧
    phaseOp (atMatch 15 2).cfg.phases (atMatch 15 2).phase ≠ .publish ∧ State.reset.active = false := by decide
theorem test_witness_KeyPredicatesReadTheirBits :
    (0xFF#16).toNat < 2 ^ 8 ∧ Config.vectors.wf = true ∧ (0xFF#16).toNat < 2 ^ Config.vectors.nbits ∧
    cfg12.wf = true ∧ (0xFFF#16).toNat < 2 ^ cfg12.nbits := by decide
/-- The last index, inverted and not; relay 7 of the eight-relay build. -/
theorem test_witness_RelayTruthTable :
    (relays false true false).rly.length = (relays false true false).cfg.nrelays ∧
    (2#3).toNat < (relays false true false).cfg.nrelays ∧
    (State.resetFor cfg12).rly.length = (State.resetFor cfg12).cfg.nrelays ∧
    (7#3).toNat < (State.resetFor cfg12).cfg.nrelays := by decide
/-- The index clauses of the relay commands at 2 and 3 (three relays), and eight relays. -/
theorem test_witness_RelayCommandsActOnTheResolvedRelay :
    ¬ State.reset.cfg.nrelays ≤ (2#3).toNat ∧ State.reset.cfg.nrelays ≤ (3#3).toNat ∧
    (State.resetFor cfg12).cfg.nrelays = 8 := by decide
/-- A next state of an instruction that is neither SETV nor SETD, and a step while the host is held. -/
theorem test_witness_DurationsAreWrittenOnlyBySetvAndSetd :
    (view (fun t => (t.vms, t.dms)) (exec .stop { State.reset with vms := 7, dms := 9 }) = some (7, 9)) ∧
    Instr.stop ≠ .setv 7 ∧ Instr.stop ≠ .setd 9 ∧ (capturing 1 5).pend = true ∧
    view (fun t => (t.vms, t.dms)) (step { capturing 1 5 with inputs := [.mstick] }) = some (100, 50) := by decide
/-- With test_inv_reset: PREP waits of 0 and of 20, and the four waits 0 together. -/
theorem test_witness_CaptureClosesCueAndEntersPrep :
    State.reset.cfg.tPrepMs ≠ 0 ∧ (State.resetFor cfgZero).cfg.tPrepMs = 0 ∧ State.reset.pend = false ∧
    (State.resetFor cfgZero).vms = 0 ∧ (State.resetFor cfgZero).dms.toNat - (State.resetFor cfgZero).vms.toNat = 0 ∧
    (State.resetFor cfgZero).cfg.tRelMs = 0 := by decide
/-- Both branches of each completion: a wait of 0 and another. -/
theorem test_witness_CompletionsEnterTheNextWait :
    State.reset.vms = 0 ∧ (capturing 1 1).vms ≠ 0 ∧ State.reset.cfg.tRelMs ≠ 0 ∧
    (State.resetFor cfgZero).cfg.tRelMs = 0 ∧ BitVec.ofNat 16 (50 - 100) = 0#16 ∧ BitVec.ofNat 16 (101 - 100) ≠ 0#16 := by decide
theorem test_witness_EffectiveDelaySaturates : (100#16).toNat ≤ (100#16).toNat ∧ ¬ (101#16).toNat ≤ (100#16).toNat := by decide
/-- An MSTICK at each clause: IDLE, W = 2 in the first and the last wait, W = 1 in each wait. -/
theorem test_witness_MstickCountsOrCompletes :
    { capturing 4 2 with inputs := [.mstick] }.cfg.wf = true ∧
    { capturing 4 2 with inputs := [.mstick] }.inputs = Event.mstick :: [] ∧ State.reset.seq = 0 ∧
    1 ≤ (capturing 1 2).seq.toNat ∧ (capturing 4 2).seq.toNat ≤ 4 ∧ 2 ≤ (capturing 4 2).w.toNat ∧
    (capturing 1 1).w.toNat = 1 ∧ (capturing 1 1).seq = 1 ∧ (capturing 2 1).seq = 2 ∧ (capturing 3 1).seq = 3 ∧
    (capturing 4 1).seq = 4 := by decide
/-- With test_inv_capture_start: from_open with VMS 100 and DMS 250 (V P3), so t1 = 20, t2 = 120, t3 = 270 and t4 = 300; n stands just
below and at each of the four. -/
theorem test_witness_CaptureTimeline :
    captureStart.pend = false ∧ decodeCommand 0xB0000000 = .capture .fromOpen ∧
    decodeCommand 0xB8000000 = .capture .fromClose ∧
    (let t1 := captureStart.cfg.tPrepMs.toNat
     let t2 := t1 + captureStart.vms.toNat
     let t3 := t2 + (captureStart.dms.toNat - captureStart.vms.toNat)
     let t4 := t3 + captureStart.cfg.tRelMs.toNat
     (19 < t1 ∧ ¬ 20 < t1) ∧ (119 < t2 ∧ ¬ 120 < t2) ∧ (269 < t3 ∧ ¬ 270 < t3) ∧ (299 < t4 ∧ ¬ 300 < t4)) := by decide
theorem test_witness_ZeroWaitCaptureIsOneEvent :
    (State.resetFor cfgZero).cfg.tPrepMs = 0 ∧ (State.resetFor cfgZero).vms = 0 ∧ (State.resetFor cfgZero).dms = 0 ∧
    (State.resetFor cfgZero).cfg.tRelMs = 0 := by decide
/-- With test_inv_capturing: a step that keeps the capture running and one that ends it. -/
theorem test_witness_CaptureIsNeverAborted :
    (capturing 1 1).pend = true ∧
    view (fun t => (t.pend, t.seq)) (step { capturing 1 1 with inputs := [.mstick] }) = some (true, 2) ∧
    view (fun t => (t.pend, t.seq)) (step { capturing 4 1 with inputs := [.mstick] }) = some (false, 0) := by decide
/-- With test_inv_reset. -/
theorem test_witness_GetstatusReturnsStatusAndClearsDiagnostics :
    State.reset.cfg.wf = true ∧ State.reset.pend = false := by decide
/-- A bad index at its bound, and a GETSTATUS, each with a next state. -/
theorem test_witness_DiagnosticsAreStickyUntilGetstatus :
    State.reset.cfg.nrelays ≤ (3#3).toNat ∧
    (view (fun t => t.diagBadidx) (exec (.ropen 3) State.reset) = some true) ∧
    view (fun t => t.diagBadidx) (exec .getstatus { State.reset with diagBadidx := true }) = some false := by decide
/-- A TTICK at each clause: stopped, counting, and matching where the count wraps. -/
theorem test_witness_TimerTickCountsAndMatches :
    { State.reset with inputs := [.ttick true] }.inputs = Event.ttick true :: [] ∧ State.reset.cfg.wf = true ∧
    State.reset.active = false ∧ (atMatch 0 10).active = true ∧ ((8#16).toNat + 1) % 65536 ≠ (10#16).toNat ∧
    ((atMatch 0 0).tcnt.toNat + 1) % 65536 = (atMatch 0 0).tcmp.toNat := by decide
theorem test_witness_CompareMatchRunsAdvancesAndRearms :
    (atMatch 17 2).cfg.wf = true ∧ decodePhase (atMatch 17 2).cfg.phases (atMatch 17 2).phase = .ok .phPublish ∧
    decodePhase (atMatch 0 10).cfg.phases (atMatch 0 10).phase = .ok .phLatch :=
  ⟨by decide, rfl, rfl⟩
theorem test_witness_SampleSetsItsBit : State.reset.cfg.wf = true ∧ (3#5).toNat % 2 = 1 ∧ (15#5).toNat % 2 = 1 ∧
    3 ≤ (3#5).toNat ∧ (15#5).toNat ≤ State.reset.cfg.phases - 3 := by decide
theorem test_witness_PublishTakesTheLastSampleAndTheEdges : State.reset.cfg.wf = true := by decide
/-- A running decoder at the start of an interval, with TCMP 10 and with TCMP 0. -/
theorem test_witness_CompareMatchComesAfterPerTicks :
    { State.reset with active := true, tcmp := 10 }.cfg.wf = true ∧
    { State.reset with active := true, tcmp := 10 }.active = true ∧
    { State.reset with active := true, tcmp := 10 }.tcnt = 0 ∧ 9 < (10#16).toNat := by decide
/-- The start of a poll cycle after START, for the key pattern 0xA5 and a DATA line that carries it (V-L1-1). -/
theorem test_witness_PollCycleRoundTrip :
    StateInv { State.reset with active := true, tcmp := 10 } ∧ (0xA5#16).toNat < 2 ^ Config.vectors.nbits ∧
    ∀ k, k < 8 → (fun n => !(0xA5#16).getLsbD ((n - 16) / 4)) (10 + (2 * k + 3) * 2) = !(0xA5#16).getLsbD k :=
  ⟨by constructor <;> decide, by decide, by decide⟩
/-- Each of the four clauses. -/
theorem test_witness_StepRunsTheSelectedInstruction :
    State.reset.cfg.wf = true ∧ State.reset.pend = false ∧ State.reset.inputs = [] ∧
    { State.reset with inputs := [.host 0] }.inputs = Event.host 0 :: [] ∧
    { State.reset with inputs := [.ttick false] }.inputs = Event.ttick false :: [] ∧
    { State.reset with inputs := [.mstick] }.inputs = Event.mstick :: [] ∧
    (mstickOp State.reset.seq State.reset.w).toOption = some .msIdle := by decide
theorem test_witness_WithFetchWordRunsTheWord : State.reset.cfg.wf = true := by decide
/-- A held host with one command before a tick, and with commands alone. -/
theorem test_witness_HostIsHeldWhilePending :
    (capturing 1 5).cfg.wf = true ∧ (capturing 1 5).pend = true ∧
    { capturing 1 5 with inputs := [.host 0x20000000, .mstick] }.inputs =
      [0x20000000#32].map .host ++ Event.tick .ms :: [] ∧
    (capturing 1 5).inputs = ([] : List Word).map .host := by decide
theorem test_witness_UnreachableSequencerStatesStop :
    { capturing 5 1 with inputs := [.mstick] }.cfg.wf = true ∧
    { capturing 5 1 with inputs := [.mstick] }.inputs = Event.mstick :: [] ∧ 5 ≤ (capturing 5 1).seq.toNat ∧
    1 ≤ (capturing 1 0).seq.toNat ∧ (capturing 4 0).seq.toNat ≤ 4 ∧ (capturing 4 0).w = 0 := by decide
theorem test_witness_RelaysAreOpenAfterReset : (2#3).toNat < Config.vectors.nrelays ∧ (7#3).toNat < cfg12.nrelays := by decide
theorem test_witness_InvariantHoldsAtReset : Config.vectors.wf = true := by decide
/-- With test_inv_relays: a step from a state of the invariant. -/
theorem test_witness_StepKeepsInvariant :
    view (fun t => t.inputs) (step { relays false true false with inputs := [.mstick] }) = some [] := by decide
/-- A START of a stopped decoder; a step with TCMP at each of the two values. -/
theorem test_witness_CompareValueStaysConfigured :
    State.reset.active = false ∧ (view (fun t => t.tcmp) (exec .start State.reset) = some 10) ∧
    (atMatch 3 2).tcmp = (atMatch 3 2).cfg.tBit ∧ (atMatch 0 10).tcmp = (atMatch 0 10).cfg.tPoll ∧
    view (fun t => t.tcmp) (step { atMatch 0 10 with inputs := [.ttick true] }) = some 2 := by decide
/-- With test_inv_reset and test_pins_agree: two steps that write a pin, the second at the standing level (42_relay.md R164,
"the pin trace records a write with no change"). -/
theorem test_witness_TraceRecordsEveryPinWrite :
    (view (fun t => t.trace) (step { State.reset with inputs := [.host 0x60000000] }) =
      some [.response 0, .pin (.rly 0) true, .event (.host 0x60000000)]) ∧
    (view (fun t => t.trace) (step { State.reset with inputs := [.host 0x50000000] }) =
      some [.response 0, .pin (.rly 0) false, .event (.host 0x50000000)]) := by decide
/-- V P3b, t = 120: RLY0 <- 0, then RLY2 <- 1, in one event. -/
theorem test_items_seq_end_valve : itemsOf .seqEndValve (capturing 2 1) = [.pin (.rly 0) false, .pin (.rly 2) true] := by decide
/-- Instructions that change PHASE, TCNT, LATCH, CLK and a relay. -/
theorem test_witness_TimerLinesAndRelaysHaveOneOwner :
    (view (fun t => (t.phase, t.latch)) (exec .ttMatch (atMatch 0 10)) = some (1, true)) ∧
    (view (fun t => t.clk) (exec (.phClkhi 2) State.reset) = some true) ∧
    (view (fun t => t.rly[0]?) (exec (.rclose 0) State.reset) = some (some true)) ∧
    encodeCommand .stop = some 0x20000000 := by decide
theorem test_witness_DecoderIgnoresTheSequencer :
    view (fun t => (t.phase, t.seq, t.w)) (exec .ttMatch { atMatch 0 10 with seq := 3, w := 7 }) = some (1, 3, 7) := by decide
theorem test_witness_SequencerIgnoresTheDecoder :
    view (fun t => (t.seq, t.w, t.phase)) (exec .seqEndPrep { capturing 1 1 with phase := 9 }) = some (2, 100, 9) := by decide
theorem test_witness_PseudoInstructionsExpand : (0#32) ≠ 1 := by decide
/-- With test_inv_capturing: the invariant state of NothingTraps. -/
theorem test_witness_NothingTraps : view (fun t => t.w) (step { capturing 4 30 with inputs := [.mstick] }) = some 29 := by decide

end Sys2Proof.Machine
end

section
/-! SUPPORT. What makes a step refuse (00_scope.md R9), and the instruction a step runs (00_scope.md R13, 30_encoding.md R91). -/

namespace Sys2Proof.Machine

/-! ### Refusals -/

/-- The check of a configuration is the condition of 00_scope.md R9. -/
theorem config_wf_iff (c : Config) : c.wf = true ↔
    (c.nbits = 8 ∨ c.nbits = 12) ∧ 1 ≤ c.nrelays ∧ c.nrelays ≤ 8 ∧
      c.valveIdx < c.nrelays ∧ c.cueIdx < c.nrelays ∧ c.relIdx < c.nrelays ∧
      c.valveIdx ≠ c.cueIdx ∧ c.valveIdx ≠ c.relIdx ∧ c.cueIdx ≠ c.relIdx := by
  simp only [Config.wf, Bool.and_eq_true, Bool.or_eq_true, beq_iff_eq, bne_iff_ne, decide_eq_true_eq, and_assoc]

/-- Every instruction has a meaning and completes in every state (60_exceptions.md R225). -/
theorem exec_completes (i : Instr) (s : State) : ∃ t, exec i s = .next t := by
  cases i <;> exact ⟨_, rfl⟩

/-- An event that selects an instruction runs it. -/
theorem runEvent_of_select {e : Event} {s : State} {i : Instr} (h : select e s = .ok i) :
    runEvent e s = exec i s := by
  simp [runEvent, h]

/-- An event that selects no instruction stops the machine with its fault (log 9, log 10). -/
theorem runEvent_of_reject {e : Event} {s : State} {r : MstickReject} (h : select e s = .error r) :
    runEvent e s = .fault (faultOf r) := by
  simp [runEvent, h]

/-- An event completes or faults, so none is refused once it is taken. -/
theorem runEvent_ne_refused (e : Event) (s : State) (r : Refusal) : runEvent e s ≠ .refused r := by
  intro hr
  cases hs : select e s with
  | ok i =>
    obtain ⟨t, ht⟩ := exec_completes i s
    rw [runEvent_of_select hs, ht] at hr
    cases hr
  | error reject =>
    rw [runEvent_of_reject hs] at hr
    cases hr

/-- A step is refused exactly under a configuration that fails the check. -/
theorem step_refused_iff (s : State) : step s = .refused .badConfiguration ↔ ¬ s.cfg.wf = true := by
  constructor
  · intro hr hwf
    rw [step_eq hwf] at hr
    exact runEvent_ne_refused _ _ _ hr
  · exact fun hwf => if_neg hwf

/-- Settles O37: a step is refused exactly where the check fails, and the check is R9's condition. -/
theorem onlyBadConfigurationsAreRefused : Obligations.OnlyBadConfigurationsAreRefused := by
  intro s
  rw [step_refused_iff, config_wf_iff]

/-! ### The instruction a step runs -/

/-- The event a step takes, where no input waits and the host is not held: the free value, with the inputs left empty (log 3). -/
theorem nextEvent_nil {s : State} (hi : s.inputs = []) (hp : s.pend = false) :
    nextEvent s = (Config.freeEvent s.now, []) := by
  simp [nextEvent, hi, hp]

/-- A step, once the event it takes is known. -/
theorem step_of_nextEvent {s : State} {e : Event} {left : List Event} (hc : s.cfg.wf = true)
    (hn : nextEvent s = (e, left)) : step s = runEvent e (arrive e left s) := by
  rw [step_eq hc, hn]

/-- Settles O34, by the event at the head of the inputs: it is the event taken, and it selects the instruction named. -/
theorem stepRunsTheSelectedInstruction : Obligations.StepRunsTheSelectedInstruction := by
  intro s hc
  refine ⟨fun c rest hi hp => ?host, fun b rest hi => ?ttick, fun i rest hi hm => ?mstick, fun hi hp => ?free⟩
  case host => exact (step_of_nextEvent hc (nextEvent_cons hi hp)).trans (runEvent_host c _)
  case ttick => exact (step_of_nextEvent hc (nextEvent_tick hi)).trans (runEvent_timer b _)
  case mstick => exact (step_of_nextEvent hc (nextEvent_tick hi)).trans (runEvent_of_select hm)
  case free => exact step_of_nextEvent hc (nextEvent_nil hi hp)

end Sys2Proof.Machine
end

section
/-! SUPPORT. The invariant of the reachable states (10_state.md R43, R45): it splits into the clauses on the sequencer's registers
and the rest, the operations of the one part leave the other part's elements as they are, and each keeps its own part. -/

namespace Sys2Proof.Machine

/-! ### What the operations of one part leave unchanged -/

/-- The state without what a capture writes (43_sequencer.md): two states with the same image agree on every other element, and
on the number of relays. -/
def maskSequencer (s : State) : State :=
  { s with rly := List.replicate s.rly.length false, seq := 0, w := 0, cref := .fromOpen, pend := false, rsp := 0, trace := [] }

/-- The state without what a TTICK writes (40_decoder.md): two states with the same image agree on every other element. -/
def maskDecoder (s : State) : State :=
  { s with phase := 0, acc := 0, keys := 0, newp := 0, ready := false, tcnt := 0, tcmp := 0, latch := false, clk := false, trace := [] }

/-- An observation that masking does not change agrees in two states of one image. -/
theorem eq_of_maskSequencer {α : Type} (f : State → α) (hf : ∀ u, f (maskSequencer u) = f u) {s t : State}
    (h : maskSequencer t = maskSequencer s) : f t = f s := by
  rw [← hf t, h, hf]

/-- An observation that masking does not change agrees in two states of one image. -/
theorem eq_of_maskDecoder {α : Type} (f : State → α) (hf : ∀ u, f (maskDecoder u) = f u) {s t : State}
    (h : maskDecoder t = maskDecoder s) : f t = f s := by
  rw [← hf t, h, hf]

/-- A relay write is one of the writes of a capture. -/
theorem maskSequencer_pinWrite_rly (j : Nat) (v : Bool) (s : State) :
    maskSequencer (pinWrite (.rly j) v s) = maskSequencer s := by
  simp [maskSequencer, pinWrite]

/-- Entering a wait leaves what its completion leaves. -/
theorem maskSequencer_enterWait {f : State → State} (hf : ∀ u, maskSequencer (f u) = maskSequencer u) (q : BitVec 3)
    (n : Half) (s : State) : maskSequencer (enterWait q n f s) = maskSequencer s := by
  unfold enterWait
  split
  · exact hf _
  · rfl

theorem maskSequencer_completeRelease (s : State) : maskSequencer (completeRelease s) = maskSequencer s := by
  simp [maskSequencer, completeRelease, respond, relayOpen, pinWrite]

theorem maskSequencer_completeDelay (s : State) : maskSequencer (completeDelay s) = maskSequencer s :=
  (maskSequencer_enterWait maskSequencer_completeRelease _ _ _).trans (maskSequencer_pinWrite_rly _ _ _)

theorem maskSequencer_completeValve (s : State) : maskSequencer (completeValve s) = maskSequencer s :=
  (maskSequencer_enterWait maskSequencer_completeDelay _ _ _).trans (maskSequencer_pinWrite_rly _ _ _)

theorem maskSequencer_completePrep (s : State) : maskSequencer (completePrep s) = maskSequencer s :=
  (maskSequencer_enterWait maskSequencer_completeValve _ _ _).trans (maskSequencer_pinWrite_rly _ _ _)

/-- CAPTURE and what an MSTICK selects: the instructions of the sequencer (43_sequencer.md). -/
def ofSequencer : Instr → Bool
  | .capture _ | .msIdle | .msCount | .seqEndPrep | .seqEndValve | .seqEndDelay | .seqEndRelease => true
  | _ => false

/-- The sequencer writes nothing outside its registers, the relays and the port. -/
theorem maskSequencer_exec {i : Instr} {s t : State} (hi : ofSequencer i = true) (h : exec i s = .next t) :
    maskSequencer t = maskSequencer s := by
  cases i with
  | capture ref =>
    cases h
    exact (maskSequencer_enterWait maskSequencer_completePrep _ _ _).trans (maskSequencer_pinWrite_rly _ _ _)
  | msIdle | msCount => cases h; rfl
  | seqEndPrep => cases h; exact maskSequencer_completePrep _
  | seqEndValve => cases h; exact maskSequencer_completeValve _
  | seqEndDelay => cases h; exact maskSequencer_completeDelay _
  | seqEndRelease => cases h; exact maskSequencer_completeRelease _
  | _ => cases hi

/-- A phase action writes nothing outside the decoder and its two lines. -/
theorem maskDecoder_phaseAction (op : PhaseOp) (s : State) : maskDecoder (phaseAction op s) = maskDecoder s := by
  cases op <;> rfl

/-- Neither does re-arming the timer. -/
theorem maskDecoder_reArm (s : State) : maskDecoder (reArm s) = maskDecoder s := by
  unfold reArm
  split_ifs <;> rfl

/-- The phase operations and what a TTICK selects: the micro-operations of the decoder (40_decoder.md). -/
def ofDecoder : Instr → Bool
  | .phLatch | .phUnlatch | .phClkhi _ | .phSample _ | .phPublish | .ttIdle | .ttCount | .ttMatch => true
  | _ => false

/-- The decoder's micro-operations write nothing outside its registers and its two lines. -/
theorem maskDecoder_exec {i : Instr} {s t : State} (hi : ofDecoder i = true) (h : exec i s = .next t) :
    maskDecoder t = maskDecoder s := by
  cases i with
  | ttMatch => cases h; exact (maskDecoder_reArm _).trans (maskDecoder_phaseAction _ _)
  | phLatch | phUnlatch | phClkhi p | phSample p | phPublish | ttIdle | ttCount => cases h; rfl
  | _ => cases hi

/-- A phase action does not move the timer (40_decoder.md R104: that follows it). -/
@[simp] theorem phaseAction_cfg (op : PhaseOp) (s : State) : (phaseAction op s).cfg = s.cfg := by cases op <;> rfl
@[simp] theorem phaseAction_phase (op : PhaseOp) (s : State) : (phaseAction op s).phase = s.phase := by cases op <;> rfl
@[simp] theorem phaseAction_tcnt (op : PhaseOp) (s : State) : (phaseAction op s).tcnt = s.tcnt := by cases op <;> rfl
@[simp] theorem phaseAction_tcmp (op : PhaseOp) (s : State) : (phaseAction op s).tcmp = s.tcmp := by cases op <;> rfl

/-- Resolving an index leaves the configuration and TCMP. -/
@[simp] theorem resolve_cfg (idx : BitVec 3) (s : State) : (resolve idx s).2.cfg = s.cfg := by
  rcases resolve_cases idx s with ⟨_, h⟩ | ⟨_, h⟩ <;> simp [h]
@[simp] theorem resolve_tcmp (idx : BitVec 3) (s : State) : (resolve idx s).2.tcmp = s.tcmp := by
  rcases resolve_cases idx s with ⟨_, h⟩ | ⟨_, h⟩ <;> simp [h]

/-- No instruction writes the configuration (00_scope.md R8, "fixed for a build"). -/
theorem exec_cfg {i : Instr} {s t : State} (h : exec i s = .next t) : t.cfg = s.cfg := by
  cases i with
  | capture _ | msIdle | msCount | seqEndPrep | seqEndValve | seqEndDelay | seqEndRelease =>
    exact eq_of_maskSequencer State.cfg (fun _ => rfl) (maskSequencer_exec rfl h)
  | phLatch | phUnlatch | phClkhi _ | phSample _ | phPublish | ttIdle | ttCount | ttMatch =>
    exact eq_of_maskDecoder State.cfg (fun _ => rfl) (maskDecoder_exec rfl h)
  | start => cases h; split_ifs <;> simp
  | ropen idx | rclose idx | risopen idx | risclosed idx => cases h; exact resolve_cfg idx s
  | stop | getheld | getpressed | setv _ | setd _ | getstatus | illegal _ => cases h; rfl

/-! ### The compare value -/

/-- TCMP after a compare match: re-armed at the wrap and after it, kept elsewhere (40_decoder.md R110). -/
theorem compareMatch_tcmp (s : State) : (compareMatch s).tcmp =
    if nextPhase s.cfg s.phase = 0 then s.cfg.tPoll else if nextPhase s.cfg s.phase = 1 then s.cfg.tBit else s.tcmp := by
  simp [compareMatch]

/-- An instruction keeps TCMP or sets it to one of the two compare values. -/
theorem exec_tcmp {i : Instr} {s t : State} (h : exec i s = .next t) :
    t.tcmp = s.tcmp ∨ t.tcmp = s.cfg.tBit ∨ t.tcmp = s.cfg.tPoll := by
  cases i with
  | capture _ | msIdle | msCount | seqEndPrep | seqEndValve | seqEndDelay | seqEndRelease =>
    exact .inl (eq_of_maskSequencer State.tcmp (fun _ => rfl) (maskSequencer_exec rfl h))
  | ttMatch =>
    cases h
    rw [compareMatch_tcmp]
    split_ifs
    · exact .inr (.inr rfl)
    · exact .inr (.inl rfl)
    · exact .inl rfl
  | start =>
    cases h
    split_ifs
    · exact .inl (by simp)
    · exact .inr (.inr rfl)
  | ropen idx | rclose idx | risopen idx | risclosed idx => cases h; exact .inl (resolve_tcmp idx s)
  | _ => cases h; exact .inl rfl

/-- Settles O44: an accepted START initialises the decoder, and every instruction that a step runs keeps TCMP or sets it to one of
the two values, under the same configuration. -/
theorem compareValueStaysConfigured : Obligations.CompareValueStaysConfigured := by
  refine ⟨fun s t hs h => ?_, fun s t hs h => ?_⟩
  · cases h
    simp [hs]
  · obtain ⟨_, i, _, hi⟩ := step_cases h
    rw [exec_cfg hi]
    rcases exec_tcmp hi with ht | ht | ht
    · rwa [ht]
    · exact .inl ht
    · exact .inr ht

/-! ### The diagnostics -/

/-- The sticky bit of a diagnostic (60_exceptions.md R221). -/
def diagBit (d : Diag) (s : State) : Bool :=
  match d with
  | .reinit => s.diagReinit
  | .badidx => s.diagBadidx
  | .badcmd => s.diagBadcmd

/-- The instruction is the cause of the diagnostic in this state (10_state.md R41). -/
def Raises (i : Instr) (s : State) : Diag → Prop
  | .reinit => i = .start ∧ s.active = true
  | .badidx => ∃ idx : BitVec 3, s.cfg.nrelays ≤ idx.toNat ∧
      (i = .ropen idx ∨ i = .rclose idx ∨ i = .risopen idx ∨ i = .risclosed idx)
  | .badcmd => ∃ w, i = .illegal w

@[simp] theorem diagBit_raiseDiag (d e : Diag) (s : State) :
    diagBit d (raiseDiag e s) = (diagBit d s || decide (e = d)) := by
  cases d
  · exact raiseDiag_diagReinit s e
  · exact raiseDiag_diagBadidx s e
  · exact raiseDiag_diagBadcmd s e

@[simp] theorem diagBit_initDecoder (d : Diag) (s : State) : diagBit d (initDecoder s) = diagBit d s := by cases d <;> rfl
@[simp] theorem diagBit_respond (d : Diag) (v : Word) (s : State) : diagBit d (respond v s) = diagBit d s := by
  cases d <;> rfl

/-- Resolving an index raises BADIDX exactly where the index names no relay (42_relay.md R163). -/
theorem diagBit_resolve (d : Diag) (idx : BitVec 3) (s : State) :
    diagBit d (resolve idx s).2 = true ↔ diagBit d s = true ∨ (d = .badidx ∧ s.cfg.nrelays ≤ idx.toNat) := by
  rcases resolve_cases idx s with ⟨hlt, h⟩ | ⟨hge, h⟩
  · simp [h, Nat.not_le.mpr hlt]
  · simp [h, hge, eq_comm (a := Diag.badidx)]

/-- The sequencer raises no diagnostic. -/
theorem diagBit_of_maskSequencer {s t : State} (h : maskSequencer t = maskSequencer s) (d : Diag) :
    diagBit d t = diagBit d s :=
  eq_of_maskSequencer (diagBit d) (fun _ => by cases d <;> rfl) h

/-- The decoder's ticks raise no diagnostic. -/
theorem diagBit_of_maskDecoder {s t : State} (h : maskDecoder t = maskDecoder s) (d : Diag) :
    diagBit d t = diagBit d s :=
  eq_of_maskDecoder (diagBit d) (fun _ => by cases d <;> rfl) h

/-- An instruction other than GETSTATUS sets exactly the diagnostics that it raises and clears none (10_state.md R41). -/
theorem diagBit_exec {i : Instr} {s t : State} (h : exec i s = .next t) (hi : i ≠ .getstatus) (d : Diag) :
    diagBit d t = true ↔ diagBit d s = true ∨ Raises i s d := by
  have kept (hd : diagBit d t = diagBit d s) (hr : ¬ Raises i s d) :
      diagBit d t = true ↔ diagBit d s = true ∨ Raises i s d := by simp [hd, hr]
  cases i with
  | start =>
    cases h
    rw [diagBit_respond]
    split_ifs with ha <;> cases d <;> simp [Raises, ha]
  | illegal w => cases h; cases d <;> simp [Raises, diagBit_respond]
  | ropen idx | rclose idx | risopen idx | risclosed idx =>
    have hres : diagBit d t = diagBit d (resolve idx s).2 := by cases h; cases d <;> rfl
    rw [hres, diagBit_resolve]
    cases d <;> simp [Raises]
  | getstatus => exact absurd rfl hi
  | capture _ | msIdle | msCount | seqEndPrep | seqEndValve | seqEndDelay | seqEndRelease =>
    exact kept (diagBit_of_maskSequencer (maskSequencer_exec rfl h) d) (by cases d <;> simp [Raises])
  | phLatch | phUnlatch | phClkhi _ | phSample _ | phPublish | ttIdle | ttCount | ttMatch =>
    exact kept (diagBit_of_maskDecoder (maskDecoder_exec rfl h) d) (by cases d <;> simp [Raises])
  | stop | getheld | getpressed | setv _ | setd _ =>
    cases h
    exact kept (by cases d <;> rfl) (by cases d <;> simp [Raises])

/-- Settles O25: reset and GETSTATUS clear the three bits, and every other instruction sets exactly what it raises. -/
theorem diagnosticsAreStickyUntilGetstatus : Obligations.DiagnosticsAreStickyUntilGetstatus := by
  refine ⟨fun c => ⟨rfl, rfl, rfl⟩, fun i s t h => ⟨fun hi => ?_, fun hi => ?_⟩⟩
  · subst hi
    cases h
    exact ⟨rfl, rfl, rfl⟩
  · exact ⟨diagBit_exec h hi .reinit, diagBit_exec h hi .badidx, diagBit_exec h hi .badcmd⟩

/-! ### The invariant at reset -/

/-- A configuration of 00_scope.md R9 has at least 2 and at most 32 phases. -/
theorem phases_bounds {c : Config} (h : c.wf = true) : 2 ≤ c.phases ∧ c.phases ≤ 32 := by
  have := Laws.phases_of_wf h
  omega

/-- Settles O42: at reset every register is 0, the decoder is stopped, no capture runs and the trace is empty. -/
theorem invariantHoldsAtReset : Obligations.InvariantHoldsAtReset := by
  refine ⟨fun c hc => ⟨?inv, ?pins⟩, rfl, by decide⟩
  case pins => exact ⟨rfl, rfl, fun j _ => rfl⟩
  case inv =>
    have hphases := phases_bounds hc
    have hzero : (0#16).toNat < 2 ^ c.nbits := Nat.two_pow_pos _
    exact {
      cfgWf := hc
      relays := rfl
      phaseLt := Nat.lt_of_lt_of_le Nat.two_pos hphases.1
      accBits := hzero
      keysBits := hzero
      newpBits := hzero
      seqLe := Nat.zero_le 4
      pendBusy := rfl
      armed := nofun
      counting := nofun
      waiting := fun h => absurd rfl h
      idleWait := fun _ => rfl }

/-! ### The two parts of the invariant -/

/-- The clauses of StateInv on the sequencer's registers. -/
structure SequencerInv (s : State) : Prop where
  seqLe    : s.seq.toNat ≤ 4
  pendBusy : s.pend = busy s
  waiting  : s.seq ≠ seqIdle → 1 ≤ s.w.toNat
  idleWait : s.seq = seqIdle → s.w = 0

/-- The other clauses of StateInv: the configuration, the number of relays and the decoder's registers. -/
structure DecoderInv (s : State) : Prop where
  cfgWf    : s.cfg.wf = true
  relays   : s.rly.length = s.cfg.nrelays
  phaseLt  : s.phase.toNat < s.cfg.phases
  accBits  : s.acc.toNat < 2 ^ s.cfg.nbits
  keysBits : s.keys.toNat < 2 ^ s.cfg.nbits
  newpBits : s.newp.toNat < 2 ^ s.cfg.nbits
  armed    : s.active = true → s.tcmp = if s.phase = 0 then s.cfg.tPoll else s.cfg.tBit
  counting : s.active = true → s.tcnt.toNat < per s.tcmp

theorem StateInv.sequencer {s : State} (h : StateInv s) : SequencerInv s := { h with }
theorem StateInv.decoder {s : State} (h : StateInv s) : DecoderInv s := { h with }

/-- The two parts make up the invariant. -/
theorem StateInv.of_parts {s : State} (hd : DecoderInv s) (hq : SequencerInv s) : StateInv s := { hd, hq with }

/-- The decoder's part does not speak of what a capture writes. -/
theorem decoderInv_maskSequencer (s : State) : DecoderInv (maskSequencer s) = DecoderInv s := by
  have hlen : (maskSequencer s).rly.length = s.rly.length := List.length_replicate
  exact propext ⟨fun h => { h with relays := hlen.symm.trans h.relays }, fun h => { h with relays := hlen.trans h.relays }⟩

/-- The sequencer's part does not speak of what a TTICK writes. -/
theorem sequencerInv_maskDecoder (s : State) : SequencerInv (maskDecoder s) = SequencerInv s :=
  propext ⟨fun h => { h with }, fun h => { h with }⟩

/-- The sequencer's instructions keep the decoder's part. -/
theorem exec_keeps_decoderInv {i : Instr} {s t : State} (hi : ofSequencer i = true) (h : exec i s = .next t)
    (hs : DecoderInv s) : DecoderInv t :=
  eq_of_maskSequencer DecoderInv decoderInv_maskSequencer (maskSequencer_exec hi h) ▸ hs

/-- The decoder's micro-operations keep the sequencer's part. -/
theorem exec_keeps_sequencerInv {i : Instr} {s t : State} (hi : ofDecoder i = true) (h : exec i s = .next t)
    (hs : SequencerInv s) : SequencerInv t :=
  eq_of_maskDecoder SequencerInv sequencerInv_maskDecoder (maskDecoder_exec hi h) ▸ hs

/-! ### The sequencer keeps its part -/

/-- Entering a wait gives a waiting state, or what the completion makes of one whose wait is over (43_sequencer.md R185). -/
theorem enterWait_sequencerInv {q : BitVec 3} (hq : q ≠ seqIdle) (hle : q.toNat ≤ 4) {f : State → State}
    (hf : ∀ u, u.pend = true → u.w = 0 → SequencerInv (f u)) (n : Half) {s : State} (hp : s.pend = true) :
    SequencerInv (enterWait q n f s) := by
  by_cases hn : n = 0
  · rw [hn, enterWait_zero]
    exact hf _ hp rfl
  · have hpos : 1 ≤ n.toNat := Nat.one_le_iff_ne_zero.mpr fun h0 => hn (BitVec.eq_of_toNat_eq h0)
    rw [enterWait_pos q hn]
    exact { seqLe := hle, pendBusy := by simp [busy, hq, hp], waiting := fun _ => hpos, idleWait := fun h => absurd h hq }

/-- Complete(RELEASE) ends the capture: IDLE, nothing pending and nothing to wait for. -/
theorem completeRelease_sequencerInv {s : State} (hw : s.w = 0) : SequencerInv (completeRelease s) where
  seqLe := Nat.zero_le 4
  pendBusy := rfl
  waiting := fun h => absurd rfl h
  idleWait := fun _ => hw

theorem completeDelay_sequencerInv {s : State} (hp : s.pend = true) : SequencerInv (completeDelay s) :=
  enterWait_sequencerInv (by decide) (by decide) (fun _ _ hw => completeRelease_sequencerInv hw) _ hp

theorem completeValve_sequencerInv {s : State} (hp : s.pend = true) : SequencerInv (completeValve s) :=
  enterWait_sequencerInv (by decide) (by decide) (fun _ hu _ => completeDelay_sequencerInv hu) _ hp

theorem completePrep_sequencerInv {s : State} (hp : s.pend = true) : SequencerInv (completePrep s) :=
  enterWait_sequencerInv (by decide) (by decide) (fun _ hu _ => completeValve_sequencerInv hu) _ hp

/-- CAPTURE keeps the sequencer's part, from every state. -/
theorem execCapture_sequencerInv {ref : Ref} {s t : State} (h : execCapture ref s = .next t) : SequencerInv t := by
  cases h
  exact enterWait_sequencerInv (by decide) (by decide) (fun _ hu _ => completePrep_sequencerInv hu) _ rfl

/-- What an MSTICK that selects an instruction selects, with what the completion of a wait needs to know of SEQ and W. -/
theorem mstickOp_ok {q : BitVec 3} {w : Half} {i : Instr} (h : mstickOp q w = .ok i) :
    i = .msIdle ∨ (i = .msCount ∧ 1 ≤ q.toNat ∧ 2 ≤ w.toNat) ∨
    ((i = .seqEndPrep ∨ i = .seqEndValve ∨ i = .seqEndDelay) ∧ 1 ≤ q.toNat) ∨ i = .seqEndRelease := by
  rcases mstickOp_cases q w with ⟨_, he⟩ | ⟨_, he⟩ | ⟨_, _, _, he⟩ | ⟨hq, _, hw, he⟩ | ⟨_, hq, he⟩ | ⟨_, hq, he⟩ | ⟨_, hq, he⟩ |
    ⟨_, _, he⟩ <;> rw [he] at h <;> cases h <;> simp [*]

/-- What an MSTICK selects is of the sequencer. -/
theorem ofSequencer_mstickOp {q : BitVec 3} {w : Half} {i : Instr} (h : mstickOp q w = .ok i) : ofSequencer i = true := by
  rcases mstickOp_ok h with rfl | ⟨rfl, _⟩ | ⟨rfl | rfl | rfl, _⟩ | rfl <;> rfl

/-- A state in a wait has its capture pending (10_state.md R43). -/
theorem SequencerInv.pend_of_seq_pos {s : State} (hs : SequencerInv s) (h : 1 ≤ s.seq.toNat) : s.pend = true := by
  have hne : s.seq ≠ seqIdle := fun h0 => by simp [h0, seqIdle] at h
  simp [hs.pendBusy, busy, hne]

/-- An MSTICK keeps the sequencer's part (43_sequencer.md R186: a wait counts down while at least 2 are left). -/
theorem mstick_keeps_sequencerInv {i : Instr} {s t : State} (hs : SequencerInv s) (hi : mstickOp s.seq s.w = .ok i)
    (h : exec i s = .next t) : SequencerInv t := by
  rcases mstickOp_ok hi with rfl | ⟨rfl, hq, hw⟩ | ⟨rfl | rfl | rfl, hq⟩ | rfl <;> cases h
  · exact hs
  · have hdec : (s.w - 1).toNat = s.w.toNat - 1 := BitVec.toNat_sub_of_le (BitVec.le_def.mpr (Nat.le_of_succ_le hw))
    have hleft : 1 ≤ (s.w - 1).toNat := by omega
    exact { hs with
      waiting := fun _ => hleft
      idleWait := fun h0 => absurd (congrArg BitVec.toNat h0) (Nat.ne_of_gt hq) }
  · exact completePrep_sequencerInv (hs.pend_of_seq_pos hq)
  · exact completeValve_sequencerInv (hs.pend_of_seq_pos hq)
  · exact completeDelay_sequencerInv (hs.pend_of_seq_pos hq)
  · exact completeRelease_sequencerInv rfl

/-! ### The decoder keeps its part -/

/-- A pin write keeps the decoder's part: it changes no number of relays. -/
theorem DecoderInv.pinWrite {s : State} (hs : DecoderInv s) (p : Pin) (v : Bool) : DecoderInv (pinWrite p v s) := by
  cases p with
  | latch | clk => exact { hs with }
  | rly j => exact { hs with relays := List.length_set.trans hs.relays }

/-- The sample of bit k is below 2 ^ n where k is (40_decoder.md R108). -/
theorem sampleBit_lt (data : Bool) {k n : Nat} (hk : k < n) : (sampleBit data k).toNat < 2 ^ n := by
  have hpow : 2 ^ k < 2 ^ n := Nat.pow_lt_pow_right Nat.one_lt_two hk
  cases data with
  | true => simp [sampleBit]
  | false =>
    have hmod : 2 ^ k % 2 ^ 16 ≤ 2 ^ k := Nat.mod_le _ _
    simpa [sampleBit, Nat.shiftLeft_eq] using Nat.lt_of_le_of_lt hmod hpow

/-- A sample of one of the NBITS bits keeps the decoder's part. -/
theorem DecoderInv.sampleInto {s : State} (hs : DecoderInv s) {k : Nat} (hk : k < s.cfg.nbits) :
    DecoderInv (sampleInto k s) := by
  have hacc : (s.acc ||| sampleBit s.data k).toNat < 2 ^ s.cfg.nbits := by
    rw [BitVec.toNat_or]
    exact Nat.or_lt_two_pow hs.accBits (sampleBit_lt s.data hk)
  have hmid : DecoderInv { s with acc := s.acc ||| sampleBit s.data k } := { hs with accBits := hacc }
  exact hmid.pinWrite .clk (!clkAsserted)

/-- A publication keeps the decoder's part: KEYS and the edges come from ACC (40_decoder.md R109). -/
theorem DecoderInv.publish {s : State} (hs : DecoderInv s) : DecoderInv (publish s) := by
  have hnewp : (s.newp ||| (s.acc &&& ~~~s.keys)).toNat < 2 ^ s.cfg.nbits := by
    rw [BitVec.toNat_or, BitVec.toNat_and]
    exact Nat.or_lt_two_pow hs.newpBits (Nat.lt_of_le_of_lt Nat.and_le_left hs.accBits)
  exact { hs with keysBits := hs.accBits, newpBits := hnewp }

/-- A dispatched sample is of one of the NBITS bits: its phase is below PHASES - 1 (40_decoder.md R104, R108). -/
theorem samplePosition_lt {c : Config} (hc : c.wf = true) {p q : Phase} (h : phaseOp c.phases p = .sample q) :
    samplePosition q < c.nbits := by
  unfold phaseOp at h
  split_ifs at h
  cases h
  have := Laws.phases_of_wf hc
  unfold samplePosition
  omega

/-- The phase action of a compare match keeps the decoder's part (40_decoder.md R104). -/
theorem DecoderInv.phaseAction {s : State} (hs : DecoderInv s) :
    DecoderInv (phaseAction (phaseOp s.cfg.phases s.phase) s) := by
  cases h : phaseOp s.cfg.phases s.phase with
  | latch =>
    have hzero : (0#16).toNat < 2 ^ s.cfg.nbits := Nat.two_pow_pos _
    exact { hs.pinWrite .latch true with accBits := hzero }
  | unlatch => exact hs.pinWrite .latch false
  | clkhi q => exact hs.pinWrite .clk clkAsserted
  | sample q => exact hs.sampleInto (samplePosition_lt hs.cfgWf h)
  | publish =>
    have hpos : s.cfg.nbits - 1 < s.cfg.nbits := by
      have := Laws.phases_of_wf hs.cfgWf
      omega
    exact (hs.sampleInto hpos).publish

/-- The phase after 0 is 1. -/
theorem nextPhase_zero {c : Config} (hc : c.wf = true) : nextPhase c 0 = 1 := by
  rcases Laws.phases_of_wf hc with ⟨_, h⟩ | ⟨_, h⟩ <;> simp [nextPhase, h]

/-- The advance and the re-arm keep the decoder's part, with the count cleared before: TCMP is set at 0 and at 1, and from 1 on it
stands at T_BIT (40_decoder.md R104, R110). -/
theorem DecoderInv.reArm_advance {s : State} (hs : DecoderInv s) (hcount : s.tcnt = 0) :
    DecoderInv (reArm { s with phase := nextPhase s.cfg s.phase }) := by
  obtain ⟨hlo, hhi⟩ := phases_bounds hs.cfgWf
  have hlt : (nextPhase s.cfg s.phase).toNat < s.cfg.phases := by
    rw [nextPhase_toNat s.phase hhi (by omega)]
    exact Nat.mod_lt _ (by omega)
  refine {
    cfgWf := by simpa using hs.cfgWf
    relays := by simpa using hs.relays
    phaseLt := by simpa using hlt
    accBits := by simpa using hs.accBits
    keysBits := by simpa using hs.keysBits
    newpBits := by simpa using hs.newpBits
    armed := fun ha => ?_
    counting := fun _ => by simpa [hcount] using per_pos _ }
  simp only [reArm_active, reArm_tcmp, reArm_phase, reArm_cfg] at ha ⊢
  split_ifs with h0 h1
  · rfl
  · rfl
  · have hne : s.phase ≠ 0 := fun hz => h1 (by rw [hz, nextPhase_zero hs.cfgWf])
    rw [hs.armed ha, if_neg hne]

/-- A compare match keeps the decoder's part, with the count cleared before. -/
theorem DecoderInv.compareMatch {s : State} (hs : DecoderInv s) (hcount : s.tcnt = 0) : DecoderInv (compareMatch s) := by
  have := hs.phaseAction.reArm_advance (by simpa using hcount)
  simpa [Machine.compareMatch] using this

/-- What a TTICK selects (40_decoder.md R102). -/
theorem ttickOp_cases (active : Bool) (n c : Half) :
    ttickOp active n c = .ttIdle ∨ (n + 1 ≠ c ∧ ttickOp active n c = .ttCount) ∨ ttickOp active n c = .ttMatch := by
  unfold ttickOp
  split_ifs with ha hm
  · exact .inl rfl
  · exact .inr (.inr rfl)
  · exact .inr (.inl ⟨hm, rfl⟩)

/-- A TTICK keeps the decoder's part: it counts below the period (40_decoder.md R103) or runs a compare match. -/
theorem ttick_keeps_decoderInv {s t : State} (hs : DecoderInv s) (h : exec (ttickOp s.active s.tcnt s.tcmp) s = .next t) :
    DecoderInv t := by
  rcases ttickOp_cases s.active s.tcnt s.tcmp with he | ⟨hne, he⟩ | he <;> rw [he] at h <;> cases h
  · exact hs
  · exact { hs with counting := fun hact => tick_lt_per (hs.counting hact) hne }
  · have hzero : (0#16).toNat < per s.tcmp := per_pos _
    exact DecoderInv.compareMatch { hs with counting := fun _ => hzero } rfl

/-- What a TTICK selects is of the decoder. -/
theorem ofDecoder_ttickOp (active : Bool) (n c : Half) : ofDecoder (ttickOp active n c) = true := by
  rcases ttickOp_cases active n c with he | ⟨_, he⟩ | he <;> rw [he] <;> rfl

/-! ### The commands keep the invariant -/

/-- What a word decodes to has a command word: no word selects a micro-operation (30_encoding.md R86, R90). -/
theorem encodeCommand_decodeCommand_isSome (c : Word) : (encodeCommand (decodeCommand c)).isSome = true := by
  rcases Laws.decode_cases c with ⟨r, hr, _, h⟩ | ⟨_, h⟩ <;> rw [h]
  · simp only [rows, List.mem_cons, List.not_mem_nil, or_false] at hr
    rcases hr with rfl | rfl | rfl | rfl | rfl | rfl | rfl | rfl | rfl | rfl | rfl | rfl <;> rfl
  · rfl

theorem StateInv.respond {s : State} (hs : StateInv s) (v : Word) : StateInv (respond v s) := { hs with }

theorem StateInv.raiseDiag {s : State} (hs : StateInv s) (d : Diag) : StateInv (raiseDiag d s) := by
  cases d <;> exact { hs with }

theorem StateInv.resolve {s : State} (hs : StateInv s) (idx : BitVec 3) : StateInv (resolve idx s).2 := by
  rcases resolve_cases idx s with ⟨_, h⟩ | ⟨_, h⟩ <;> rw [h]
  · exact hs
  · exact hs.raiseDiag .badidx

theorem StateInv.pinWrite {s : State} (hs : StateInv s) (p : Pin) (v : Bool) : StateInv (pinWrite p v s) := by
  refine .of_parts (hs.decoder.pinWrite p v) ?_
  have hq := hs.sequencer
  cases p <;> exact { hq with }

theorem StateInv.arrive {s : State} (hs : StateInv s) (e : Event) (left : List Event) : StateInv (arrive e left s) :=
  { hs with }

/-- START arms the long interval at PHASE 0 with everything else cleared (40_decoder.md R100). -/
theorem StateInv.initDecoder {s : State} (hs : StateInv s) : StateInv (initDecoder s) := by
  have hzero : (0#16).toNat < 2 ^ s.cfg.nbits := Nat.two_pow_pos _
  have hphase : 0 < s.cfg.phases := Nat.lt_of_lt_of_le Nat.two_pos (phases_bounds hs.cfgWf).1
  exact { hs with
    phaseLt := hphase
    accBits := hzero
    keysBits := hzero
    newpBits := hzero
    armed := fun _ => rfl
    counting := fun _ => per_pos _ }

/-- A command keeps the invariant, from every state of it. -/
theorem command_keeps_inv {i : Instr} {s t : State} (hc : (encodeCommand i).isSome = true) (hs : StateInv s)
    (h : exec i s = .next t) : StateInv t := by
  cases i with
  | capture ref => exact .of_parts (exec_keeps_decoderInv rfl h hs.decoder) (execCapture_sequencerInv h)
  | start =>
    cases h
    split
    · exact (hs.raiseDiag .reinit).respond 0
    · exact hs.initDecoder.respond 0
  | stop => cases h; exact { hs with armed := nofun, counting := nofun }
  | getpressed =>
    cases h
    have hzero : (0#16).toNat < 2 ^ s.cfg.nbits := Nat.two_pow_pos _
    exact { hs with newpBits := hzero }
  | ropen idx | rclose idx => cases h; exact ((hs.resolve idx).pinWrite _ _).respond 0
  | risopen idx | risclosed idx => cases h; exact (hs.resolve idx).respond _
  | illegal w => cases h; exact (hs.raiseDiag .badcmd).respond 0
  | getheld | setv ms | setd ms | getstatus => cases h; exact { hs with }
  | _ => cases hc

/-! ### Every step keeps the invariant -/

/-- An event's instruction keeps the invariant: a command keeps all of it, a tick keeps the part of its time base and leaves what
the other part speaks of. -/
theorem selected_keeps_inv {e : Event} {i : Instr} {s t : State} (hs : StateInv s) (hi : select e s = .ok i)
    (h : exec i s = .next t) : StateInv t := by
  match e with
  | .host c =>
    cases hi
    exact command_keeps_inv (encodeCommand_decodeCommand_isSome c) hs h
  | .tick (.timer b) =>
    cases hi
    exact .of_parts (ttick_keeps_decoderInv hs.decoder h) (exec_keeps_sequencerInv (ofDecoder_ttickOp _ _ _) h hs.sequencer)
  | .tick .ms =>
    exact .of_parts (exec_keeps_decoderInv (ofSequencer_mstickOp hi) h hs.decoder)
      (mstick_keeps_sequencerInv hs.sequencer hi h)

/-- Settles O43: the arrival of the event keeps the invariant, and so does the instruction that it selects. -/
theorem stepKeepsInvariant : Obligations.StepKeepsInvariant := by
  intro s t hs h
  obtain ⟨_, i, hi, hexec⟩ := step_cases h
  exact selected_keeps_inv (hs.arrive _ _) hi hexec

end Sys2Proof.Machine
end

section
/-! SUPPORT. The pins agree with the trace along every step (20_memory.md R73): a pin write keeps the agreement, nothing else that an
instruction does touches a pin or records a write, and so every instruction keeps it. -/

namespace Sys2Proof.Machine

/-! ### The shared operations keep the agreement -/

/-- What a relay's pin reads after a relay write: the level written, or its own where the write is of another relay. -/
theorem relayPin_pinWrite_rly {s : State} {j : Nat} (hj : j < s.rly.length) (i : Nat) (v : Bool) :
    relayPin (pinWrite (.rly i) v s) j = if i = j then v else relayPin s j := by
  split_ifs with h
  · simp [relayPin, h, hj]
  · simp [relayPin, List.getElem?_set_ne h]

/-- A pin write drives the level that it records, and leaves every other pin and what is recorded last of it. -/
theorem PinsAgree.pinWrite {s : State} (hs : PinsAgree s) (p : Pin) (v : Bool) : PinsAgree (pinWrite p v s) := by
  cases p with
  | latch => exact { hs with latch := rfl }
  | clk => exact { hs with clk := rfl }
  | rly i =>
    refine { hs with rly := fun j hj => ?_ }
    have hlt : j < s.rly.length := by simpa using hj
    rw [relayPin_pinWrite_rly hlt, hs.rly j hlt]
    simp [lastWritten]

theorem PinsAgree.respond {s : State} (hs : PinsAgree s) (v : Word) : PinsAgree (respond v s) := { hs with }

theorem PinsAgree.arrive {s : State} (hs : PinsAgree s) (e : Event) (left : List Event) : PinsAgree (arrive e left s) :=
  { hs with }

theorem PinsAgree.raiseDiag {s : State} (hs : PinsAgree s) (d : Diag) : PinsAgree (raiseDiag d s) := by
  cases d <;> exact { hs with }

theorem PinsAgree.resolve {s : State} (hs : PinsAgree s) (idx : BitVec 3) : PinsAgree (resolve idx s).2 := by
  rcases resolve_cases idx s with ⟨_, h⟩ | ⟨_, h⟩ <;> rw [h]
  · exact hs
  · exact hs.raiseDiag .badidx

theorem PinsAgree.reArm {s : State} (hs : PinsAgree s) : PinsAgree (reArm s) := by
  unfold Machine.reArm
  split_ifs <;> exact { hs with }

/-! ### The completions of the sequencer keep it -/

/-- Entering a wait keeps the agreement, where the completion of the wait does (43_sequencer.md R185). -/
theorem PinsAgree.enterWait {s : State} (hs : PinsAgree s) {f : State → State} (hf : ∀ u, PinsAgree u → PinsAgree (f u))
    (q : BitVec 3) (n : Half) : PinsAgree (enterWait q n f s) := by
  have hwait : PinsAgree { s with seq := q, w := n } := { hs with }
  unfold Machine.enterWait
  split
  · exact hf _ hwait
  · exact hwait

theorem PinsAgree.completeRelease {s : State} (hs : PinsAgree s) : PinsAgree (completeRelease s) := by
  have hopened := (hs.pinWrite (.rly s.cfg.relIdx) (invertAt s.cfg s.cfg.relIdx)).pinWrite
    (.rly s.cfg.cueIdx) (invertAt s.cfg s.cfg.cueIdx)
  exact { hopened with }

theorem PinsAgree.completeDelay {s : State} (hs : PinsAgree s) : PinsAgree (completeDelay s) :=
  (hs.pinWrite _ _).enterWait (fun _ hu => hu.completeRelease) _ _

theorem PinsAgree.completeValve {s : State} (hs : PinsAgree s) : PinsAgree (completeValve s) :=
  (hs.pinWrite _ _).enterWait (fun _ hu => hu.completeDelay) _ _

theorem PinsAgree.completePrep {s : State} (hs : PinsAgree s) : PinsAgree (completePrep s) :=
  (hs.pinWrite _ _).enterWait (fun _ hu => hu.completeValve) _ _

/-! ### The phase operations keep it -/

/-- A phase action is one write of LATCH or CLK beside registers that are no pins (40_decoder.md R105 to R109). -/
theorem PinsAgree.phaseAction {s : State} (hs : PinsAgree s) (op : PhaseOp) : PinsAgree (phaseAction op s) := by
  cases op with
  | latch => exact { hs.pinWrite .latch true with }
  | unlatch => exact hs.pinWrite .latch false
  | clkhi p => exact hs.pinWrite .clk clkAsserted
  | sample p | publish => exact { hs.pinWrite .clk (!clkAsserted) with }

theorem PinsAgree.compareMatch {s : State} (hs : PinsAgree s) : PinsAgree (compareMatch s) := by
  have hacted := hs.phaseAction (phaseOp s.cfg.phases s.phase)
  exact PinsAgree.reArm { hacted with }

/-! ### Every instruction and every step keeps it -/

/-- Every instruction keeps the agreement of the pins with the trace. -/
theorem exec_keeps_pinsAgree {i : Instr} {s t : State} (hs : PinsAgree s) (h : exec i s = .next t) : PinsAgree t := by
  cases i with
  | start =>
    cases h
    split
    · exact (hs.raiseDiag .reinit).respond 0
    · exact { hs with }
  | ropen idx | rclose idx => cases h; exact ((hs.resolve idx).pinWrite _ _).respond 0
  | risopen idx | risclosed idx => cases h; exact (hs.resolve idx).respond _
  | stop | getheld | getpressed | setv ms | setd ms | getstatus | illegal w => cases h; exact { hs with }
  | capture ref =>
    cases h
    have hpending : PinsAgree { s with pend := true, cref := ref } := { hs with }
    exact (hpending.pinWrite _ _).enterWait (fun _ hu => hu.completePrep) _ _
  | phLatch => cases h; exact hs.phaseAction .latch
  | phUnlatch => cases h; exact hs.phaseAction .unlatch
  | phClkhi p => cases h; exact hs.phaseAction (.clkhi p)
  | phSample p => cases h; exact hs.phaseAction (.sample p)
  | phPublish => cases h; exact hs.phaseAction .publish
  | ttMatch => cases h; exact PinsAgree.compareMatch { hs with }
  | ttIdle | ttCount | msIdle | msCount => cases h; exact { hs with }
  | seqEndPrep => cases h; exact PinsAgree.completePrep { hs with }
  | seqEndValve => cases h; exact PinsAgree.completeValve { hs with }
  | seqEndDelay => cases h; exact PinsAgree.completeDelay { hs with }
  | seqEndRelease => cases h; exact PinsAgree.completeRelease { hs with }

/-- The arrival of an event changes nothing that decides which instruction an event selects (30_encoding.md R86, R91). -/
theorem select_arrive (d e : Event) (left : List Event) (s : State) : select d (arrive e left s) = select d s := rfl

/-- Settles O45: the instruction that the event selects adds its items after the event's, and keeps the pins in agreement. -/
theorem traceRecordsEveryPinWrite : Obligations.TraceRecordsEveryPinWrite := by
  intro s t _ hs h
  obtain ⟨_, i, hi, hexec⟩ := step_cases h
  refine ⟨exec_keeps_pinsAgree (hs.arrive _ _) hexec, i, ?_, ?_⟩
  · rwa [select_arrive] at hi
  · rw [exec_trace hexec, itemsOf_arrive, arrive_trace]

end Sys2Proof.Machine
end

section
/-! SUPPORT. The encoding (30_encoding.md): the PHASE classes of R90, the words that spell no command (R87), the responses of R89, the
pseudo-instructions of R93, and what a presented word makes the next step run (log 15). -/

namespace Sys2Proof.Machine

open Sys2Proof.Laws

/-! ### The PHASE classes -/

/-- A PHASE below PHASES names the phase operation that the dispatch selects. -/
theorem decodePhase_of_lt {n : Nat} {p : Phase} (h : p.toNat < n) : decodePhase n p = .ok (phaseOp n p).instr :=
  if_pos h

/-! The dispatch of 40_decoder.md R104 on each class of 30_encoding.md R90. -/

theorem phaseOp_latch {n : Nat} {p : Phase} (h : p.toNat = 0) : phaseOp n p = .latch :=
  if_pos h

theorem phaseOp_unlatch {n : Nat} {p : Phase} (h : p.toNat = 1) : phaseOp n p = .unlatch := by
  simp [phaseOp, h]

theorem phaseOp_clkhi {n : Nat} {p : Phase} (heven : p.toNat % 2 = 0) (h2 : 2 ≤ p.toNat) : phaseOp n p = .clkhi p := by
  simp [phaseOp, show p.toNat ≠ 0 by omega, show p.toNat ≠ 1 by omega, heven]

theorem phaseOp_sample {n : Nat} {p : Phase} (hodd : p.toNat % 2 = 1) (h3 : 3 ≤ p.toNat) (hlt : p.toNat < n - 1) :
    phaseOp n p = .sample p := by
  simp [phaseOp, show p.toNat ≠ 0 by omega, show p.toNat ≠ 1 by omega, hodd, hlt]

theorem phaseOp_publish {n : Nat} {p : Phase} (hodd : p.toNat % 2 = 1) (h3 : 3 ≤ p.toNat) (hge : n - 1 ≤ p.toNat) :
    phaseOp n p = .publish := by
  simp [phaseOp, show p.toNat ≠ 0 by omega, show p.toNat ≠ 1 by omega, hodd, Nat.not_lt.mpr hge]

/-- The phase operation of a PHASE below an even number of phases is well formed and encodes back to that PHASE: every such PHASE is of
one of the five classes. -/
theorem encodePhase_phaseOp {n : Nat} {p : Phase} (heven : n % 2 = 0) (h : p.toNat < n) :
    (phaseOp n p).instr.wf n = true ∧ encodePhase n (phaseOp n p).instr = some p := by
  rcases (show p.toNat = 0 ∨ p.toNat = 1 ∨ (p.toNat % 2 = 0 ∧ 2 ≤ p.toNat) ∨
    (p.toNat % 2 = 1 ∧ 3 ≤ p.toNat ∧ p.toNat < n - 1) ∨ (p.toNat % 2 = 1 ∧ 3 ≤ p.toNat ∧ p.toNat = n - 1) by omega) with
    h0 | h1 | ⟨he, h2⟩ | ⟨ho, h3, hlt⟩ | ⟨ho, h3, hlast⟩
  · rw [phaseOp_latch h0]
    exact ⟨rfl, congrArg some (BitVec.eq_of_toNat_eq h0.symm)⟩
  · rw [phaseOp_unlatch h1]
    exact ⟨rfl, congrArg some (BitVec.eq_of_toNat_eq h1.symm)⟩
  · rw [phaseOp_clkhi he h2]
    refine ⟨?_, rfl⟩
    simp [PhaseOp.instr, Instr.wf, isClkhiPhase]
    omega
  · rw [phaseOp_sample ho h3 hlt]
    refine ⟨?_, rfl⟩
    simp [PhaseOp.instr, Instr.wf, isSamplePhase]
    omega
  · rw [phaseOp_publish ho h3 hlast.ge]
    refine ⟨rfl, ?_⟩
    simp [PhaseOp.instr, encodePhase, ← hlast]

/-- Settles O3, class by class; the number of phases is 18 or 26. -/
theorem phaseSelectsItsOperation : Obligations.PhaseSelectsItsOperation := by
  intro c p hc
  have hn : c.phases = 18 ∨ c.phases = 26 := (phases_of_wf hc).imp And.right And.right
  refine ⟨fun h => ?latch, fun h => ?unlatch, fun he h2 hle => ?clkhi, fun ho h3 hle => ?sample, fun h => ?publish,
    fun hlt => ⟨_, decodePhase_of_lt hlt, encodePhase_phaseOp (by omega) hlt⟩⟩
  case latch => rw [decodePhase_of_lt (by omega), phaseOp_latch h]; rfl
  case unlatch => rw [decodePhase_of_lt (by omega), phaseOp_unlatch h]; rfl
  case clkhi => rw [decodePhase_of_lt (by omega), phaseOp_clkhi he h2]; rfl
  case sample => rw [decodePhase_of_lt (by omega), phaseOp_sample ho h3 (by omega)]; rfl
  case publish => rw [decodePhase_of_lt (by omega), phaseOp_publish (by omega) (by omega) h.ge]; rfl

/-! ### The words that spell no command -/

/-! Every defined opcode has a row that leaves free exactly the field it uses: none, IDX, IMM16 or REF (30_encoding.md R85). -/

theorem exists_row_plain : ∀ op : BitVec 4, (op.toNat = 1 ∨ op.toNat = 2 ∨ op.toNat = 3 ∨ op.toNat = 4 ∨ op.toNat = 12) →
    ∃ r ∈ rows, r.mask = 0xFFFFFFFF#32 ∧ r.pat = packCommand op 0 0 0 := by decide
theorem exists_row_relay : ∀ op : BitVec 4, (op.toNat = 5 ∨ op.toNat = 6 ∨ op.toNat = 7 ∨ op.toNat = 8) →
    ∃ r ∈ rows, r.mask = 0xF8FFFFFF#32 ∧ r.pat = packCommand op 0 0 0 := by decide
theorem exists_row_duration : ∀ op : BitVec 4, (op.toNat = 9 ∨ op.toNat = 10) →
    ∃ r ∈ rows, r.mask = 0xFFFF0000#32 ∧ r.pat = packCommand op 0 0 0 := by decide
theorem exists_hit_capture : ∀ op : BitVec 4, op.toNat = 11 → ∀ ref : BitVec 1,
    ∃ r ∈ rows, r.hits (packCommand op ref 0 0) = true := by decide

/-- A word hits the row with a given mask and pattern, if it has that pattern under that mask (30_encoding.md R85). -/
theorem exists_hit_of_mask {mask pat w : Word} (hrow : ∃ r ∈ rows, r.mask = mask ∧ r.pat = pat) (hw : w &&& mask = pat) :
    ∃ r ∈ rows, r.hits w = true := by
  obtain ⟨r, hr, rfl, rfl⟩ := hrow
  exact ⟨r, hr, beq_iff_eq.mpr hw⟩

/-- Every command word hits a row (30_encoding.md R85): it is its fields, packed, and the row of its opcode leaves free what the
opcode uses. -/
theorem exists_hit_of_isCommandWord {w : Word} (h : isCommandWord w = true) : ∃ r ∈ rows, r.hits w = true := by
  simp only [isCommandWord, Bool.or_eq_true, beq_iff_eq, or_assoc] at h
  split_ifs at h with hplain hrelay hduration hcapture <;> simp only [Bool.and_eq_true, beq_iff_eq] at h
  · obtain ⟨⟨⟨href, hidx⟩, hrsv⟩, himm⟩ := h
    rw [← pack_of_fields w hrsv, href, show fieldIdx w = 0 from hidx, show fieldImm16 w = 0 from himm]
    exact exists_hit_of_mask (exists_row_plain _ hplain) BitVec.and_allOnes
  · obtain ⟨⟨href, hrsv⟩, himm⟩ := h
    rw [← pack_of_fields w hrsv, href, show fieldImm16 w = 0 from himm]
    exact exists_hit_of_mask (exists_row_relay _ hrelay) (hit_relay _ _)
  · obtain ⟨⟨href, hidx⟩, hrsv⟩ := h
    rw [← pack_of_fields w hrsv, href, show fieldIdx w = 0 from hidx]
    exact exists_hit_of_mask (exists_row_duration _ hduration) (hit_duration _ _)
  · obtain ⟨⟨hidx, hrsv⟩, himm⟩ := h
    rw [← pack_of_fields w hrsv, show fieldIdx w = 0 from hidx, show fieldImm16 w = 0 from himm]
    exact exists_hit_capture _ hcapture _

/-- No row builds ILLEGAL. -/
theorem rows_build_ne_illegal : ∀ r ∈ rows, ∀ w v : Word, r.build w ≠ .illegal v := by
  simp [rows]

/-- ILLEGAL is what the words that are no command word decode to (30_encoding.md R86, R87). -/
theorem decodeCommand_eq_illegal_iff (w : Word) : decodeCommand w = .illegal w ↔ isCommandWord w = false := by
  rcases decode_cases w with ⟨r, hr, hhit, hdecode⟩ | ⟨hmiss, hdecode⟩ <;> rw [hdecode]
  · simp [rows_build_ne_illegal r hr, isCommandWord_of_hit hr hhit]
  · have hno : isCommandWord w ≠ true := by
      intro hcommand
      obtain ⟨r, hr, hhit⟩ := exists_hit_of_isCommandWord hcommand
      rw [hmiss r hr] at hhit
      cases hhit
    simp [hno]

/-- A field of a word, as a number. -/
theorem field_toNat (w : Word) (lo n : Nat) : (w.extractLsb' lo n).toNat = w.toNat / 2 ^ lo % 2 ^ n := by
  rw [BitVec.extractLsb'_toNat, Nat.shiftRight_eq_div_pow]

/-- A field of a word is 0 exactly when its number is. -/
theorem field_eq_zero_iff (w : Word) (lo n : Nat) : w.extractLsb' lo n = 0 ↔ w.toNat / 2 ^ lo % 2 ^ n = 0 := by
  rw [← field_toNat, BitVec.toNat_eq]
  rfl

/-- What makes a word no command word, in the numbers of its fields (30_encoding.md R87). -/
theorem isCommandWord_eq_false_iff (w : Word) : isCommandWord w = false ↔
    (let op := w.toNat / 2 ^ 28
     let ref := w.toNat / 2 ^ 27 % 2
     let idx := w.toNat / 2 ^ 24 % 8
     let rsv := w.toNat / 2 ^ 16 % 256
     let imm := w.toNat % 2 ^ 16
     op = 0 ∨ 13 ≤ op ∨ rsv ≠ 0 ∨ (ref ≠ 0 ∧ op ≠ 11) ∨ (idx ≠ 0 ∧ ¬ (5 ≤ op ∧ op ≤ 8)) ∨
       (imm ≠ 0 ∧ op ≠ 9 ∧ op ≠ 10)) := by
  have hop : (w.extractLsb' 28 4).toNat = w.toNat / 2 ^ 28 := (field_toNat w 28 4).trans (Nat.mod_eq_of_lt (by omega))
  have href : w.extractLsb' 27 1 = 0 ↔ w.toNat / 2 ^ 27 % 2 = 0 := field_eq_zero_iff w 27 1
  have hidx : w.extractLsb' 24 3 = 0 ↔ w.toNat / 2 ^ 24 % 8 = 0 := field_eq_zero_iff w 24 3
  have hrsv : w.extractLsb' 16 8 = 0 ↔ w.toNat / 2 ^ 16 % 256 = 0 := field_eq_zero_iff w 16 8
  have himm : w.extractLsb' 0 16 = 0 ↔ w.toNat % 2 ^ 16 = 0 := by rw [field_eq_zero_iff, pow_zero, Nat.div_one]
  simp only [isCommandWord, hop, Bool.or_eq_true, beq_iff_eq, or_assoc]
  generalize w.toNat / 2 ^ 28 = op
  split_ifs with hplain hrelay hduration hcapture <;>
    simp only [Bool.and_eq_false_iff, beq_eq_false_iff_ne, ne_eq, href, hidx, hrsv, himm, true_iff]
  all_goals omega

/-- Settles O5: ILLEGAL is what the words that are no command word decode to, and its effect is one equation. -/
theorem illegalWordsOnlyRaiseBadcmd : Obligations.IllegalWordsOnlyRaiseBadcmd :=
  ⟨fun w => (decodeCommand_eq_illegal_iff w).trans (isCommandWord_eq_false_iff w), fun _ _ => rfl⟩

/-! ### Responses -/

/-- Resolving an index leaves the relay pins and the trace (42_relay.md R163). -/
@[simp] theorem resolve_rly (idx : BitVec 3) (s : State) : (resolve idx s).2.rly = s.rly := by
  rcases resolve_cases idx s with ⟨_, h⟩ | ⟨_, h⟩ <;> simp [h]
@[simp] theorem resolve_trace (idx : BitVec 3) (s : State) : (resolve idx s).2.trace = s.trace := by
  rcases resolve_cases idx s with ⟨_, h⟩ | ⟨_, h⟩ <;> simp [h]

/-- The predicates of a relay do not read what resolving an index writes (42_relay.md R162). -/
@[simp] theorem isOpen_resolve (idx : BitVec 3) (s : State) (j : Nat) : isOpen (resolve idx s).2 j = isOpen s j := by
  simp [isOpen, relayPin]
@[simp] theorem isClosed_resolve (idx : BitVec 3) (s : State) (j : Nat) :
    isClosed (resolve idx s).2 j = isClosed s j := by
  simp [isClosed, relayPin]

/-- What RISOPEN and RISCLOSED do (42_relay.md R166, R167): the response is the predicate's value in the state of the command. -/
theorem exec_risopen (idx : BitVec 3) (s : State) :
    exec (.risopen idx) s = .next (respond (flag (isOpen s (resolve idx s).1)) (resolve idx s).2) := by
  rw [← isOpen_resolve idx]
  rfl
theorem exec_risclosed (idx : BitVec 3) (s : State) :
    exec (.risclosed idx) s = .next (respond (flag (isClosed s (resolve idx s).1)) (resolve idx s).2) := by
  rw [← isClosed_resolve idx]
  rfl

/-- How a capture stands at the end of an event in which it ran, where RSP was v before it (30_encoding.md R89): it is still pending
and has not responded, or it has responded 0. -/
def CaptureAnswer (v : Word) (t : State) : Prop :=
  (t.pend = true ∧ t.rsp = v) ∨ (t.pend = false ∧ t.rsp = 0 ∧ t.trace.head? = some (.response 0))

/-- A wait leaves the capture pending, or its completion settles how the capture stands (43_sequencer.md R185). -/
theorem enterWait_captureAnswer {f : State → State} (hf : ∀ u, u.pend = true → CaptureAnswer u.rsp (f u)) (q : BitVec 3)
    (n : Half) {s : State} (hp : s.pend = true) : CaptureAnswer s.rsp (enterWait q n f s) := by
  unfold enterWait
  split
  · exact hf _ hp
  · exact .inl ⟨hp, rfl⟩

/-! The completions, last first, each with what follows it in the event (43_sequencer.md R187 to R190). -/

theorem completeRelease_captureAnswer (v : Word) (s : State) : CaptureAnswer v (completeRelease s) :=
  .inr ⟨rfl, rfl, rfl⟩

theorem completeDelay_captureAnswer {s : State} (hp : s.pend = true) : CaptureAnswer s.rsp (completeDelay s) :=
  enterWait_captureAnswer (s := relayClose s.cfg.relIdx s) (fun u _ => completeRelease_captureAnswer u.rsp u) _ _ hp

theorem completeValve_captureAnswer {s : State} (hp : s.pend = true) : CaptureAnswer s.rsp (completeValve s) :=
  enterWait_captureAnswer (s := relayOpen s.cfg.valveIdx s) (fun _ => completeDelay_captureAnswer) _ _ hp

theorem completePrep_captureAnswer {s : State} (hp : s.pend = true) : CaptureAnswer s.rsp (completePrep s) :=
  enterWait_captureAnswer (s := relayClose s.cfg.valveIdx s) (fun _ => completeValve_captureAnswer) _ _ hp

/-- CAPTURE is still pending after its event, or has responded 0 in it. -/
theorem execCapture_captureAnswer (ref : Ref) (s : State) :
    ∃ t, execCapture ref s = .next t ∧ CaptureAnswer s.rsp t :=
  ⟨_, rfl, enterWait_captureAnswer (s := relayClose s.cfg.cueIdx { s with pend := true, cref := ref })
    (fun _ => completePrep_captureAnswer) _ _ rfl⟩

/-- Settles O26, command by command as the table lists them. -/
theorem commandsRespondAsTabled : Obligations.CommandsRespondAsTabled := by
  intro s
  refine ⟨fun i hi => ?zero, ?getheld, ?getpressed, fun j => ?relay, ?getstatus, fun ref => ?capture⟩
  case zero =>
    rcases hi with rfl | rfl | ⟨j, rfl⟩ | ⟨j, rfl⟩ | ⟨m, rfl⟩ | ⟨m, rfl⟩ | ⟨w, rfl⟩ | rfl <;> exact ⟨_, rfl, rfl, rfl⟩
  case getheld => exact ⟨_, rfl, (BitVec.ofNat_toNat 32 s.keys).symm, rfl⟩
  case getpressed => exact ⟨_, rfl, (BitVec.ofNat_toNat 32 s.newp).symm, rfl⟩
  case relay => exact ⟨_, _, exec_risopen j s, exec_risclosed j s, rfl, rfl, by simp, by simp⟩
  case getstatus => exact ⟨_, rfl, rfl, rfl⟩
  case capture => exact execCapture_captureAnswer ref s

/-! ### The word that withFetchWord presents -/

/-- A TTICK with the count one below the compare value of an active timer is a match (40_decoder.md R102). -/
theorem ttickOp_match (c : Half) : ttickOp true (c - 1) c = .ttMatch := by
  simp [ttickOp]

/-- A 32-bit word is presented as the next command. -/
theorem withFetchWord_command (s : State) (w : Nat) :
    s.withFetchWord 32 w = presentCommand (BitVec.ofNat 32 w) s := rfl

/-- A byte that holds a PHASE is presented as the PHASE of the next match. -/
theorem withFetchWord_phase (s : State) (p : Phase) : s.withFetchWord 8 p.toNat = presentPhase p s := by
  simp [State.withFetchWord, p.isLt]

/-- Settles O35: the presented event is the one that the step takes, and it selects the instruction named. -/
theorem withFetchWordRunsTheWord : Obligations.WithFetchWordRunsTheWord := by
  intro s w hc
  refine ⟨?command, fun p => ?phase⟩
  case command =>
    rw [withFetchWord_command,
      step_of_nextEvent (s := presentCommand (BitVec.ofNat 32 w) s) hc (nextEvent_cons rfl rfl), runEvent_host]
    rfl
  case phase =>
    rw [withFetchWord_phase, step_of_nextEvent (s := presentPhase p s) hc (nextEvent_tick rfl)]
    exact runEvent_of_select (congrArg Except.ok (ttickOp_match s.tcmp))

/-! ### Pseudo-instructions -/

/-- The word of a duration command is the word of its opcode with the duration in its low bits (30_encoding.md R92). -/
theorem packCommand_duration (op : BitVec 4) (ms : Half) :
    packCommand op 0 0 ms = packCommand op 0 0 0 ||| ms.setWidth 32 := by
  apply BitVec.eq_of_getLsbD_eq
  intro i hi
  rw [BitVec.getLsbD_or, packCommand_getLsbD, packCommand_getLsbD, BitVec.getLsbD_setWidth]
  interval_cases i <;> simp

/-- The word of a relay command is the word of its opcode with the index from bit 24 on (30_encoding.md R92). -/
theorem packCommand_relay (op : BitVec 4) (idx : BitVec 3) :
    packCommand op 0 idx 0 = packCommand op 0 0 0 ||| (idx.setWidth 32 <<< 24) := by
  apply BitVec.eq_of_getLsbD_eq
  intro i hi
  rw [BitVec.getLsbD_or, packCommand_getLsbD, packCommand_getLsbD, BitVec.getLsbD_shiftLeft, BitVec.getLsbD_setWidth]
  interval_cases i <;> simp

/-- Settles O49: the words of the commands, field by field; the second step of RTOGGLE is the choice by the response. -/
theorem pseudoInstructionsExpand : Obligations.PseudoInstructionsExpand := by
  refine ⟨fun v d ref => ?capt, fun i => ⟨_, _, rfl, fun r => ?query, ?close, fun r hr => ?reopen⟩⟩
  case capt =>
    have hv : packCommand 9 0 0 v = 0x90000000 ||| v.setWidth 32 := packCommand_duration 9 v
    have hd : packCommand 10 0 0 d = 0xA0000000 ||| d.setWidth 32 := packCommand_duration 10 d
    rw [← hv, ← hd]
    cases ref <;> rfl
  case query => exact packCommand_relay 7 i
  case close => exact packCommand_relay 6 i
  case reopen => exact (if_neg hr).trans (packCommand_relay 5 i)

end Sys2Proof.Machine
end

section
/-! SUPPORT. The decoder (40_decoder.md), event by event: START and STOP (R100, R101), the phase operations (R105 to R109), what a TTICK
and a compare match do (R102, R104, R110), and which instructions write KEYS, NEWP and READY (R113). -/

namespace Sys2Proof.Machine

/-! ### START and STOP -/

/-- Settles O6, by ACTIVE. -/
theorem startInitialisesOnlyWhenStopped : Obligations.StartInitialisesOnlyWhenStopped := by
  refine ⟨by decide, fun s => ?_⟩
  simp only [exec, execStart]
  split_ifs <;> rfl

/-- Settles O7: a stopped timer selects TT_IDLE, whatever its count. -/
theorem stopOnlyDisablesTheTimer : Obligations.StopOnlyDisablesTheTimer := by
  refine ⟨by decide, fun s => rfl, fun s hstopped => ⟨?_, rfl⟩⟩
  rw [hstopped]
  rfl

/-! ### The phase operations -/

/-- Settles O29: each of the three is one pin write, PH_LATCH with the clear of ACC. -/
theorem latchAndClockPhasesDriveTheirLine : Obligations.LatchAndClockPhasesDriveTheirLine :=
  fun _ => ⟨rfl, rfl, fun _ => rfl⟩

/-- The sample of bit k is 2^k where DATA is 0 and 0 where it is 1: a pressed button reads 0 (40_decoder.md R108). -/
theorem sampleBit_eq_ofNat (data : Bool) (k : Nat) :
    sampleBit data k = BitVec.ofNat 16 (if data = true then 0 else 2 ^ k) := by
  cases data with
  | true => simp [sampleBit]
  | false => exact BitVec.eq_of_toNat_eq (by simp [sampleBit, Nat.shiftLeft_eq])

/-- Settles O30, by what the sampled bit is. -/
theorem sampleSetsItsBit : Obligations.SampleSetsItsBit := by
  intro s p _ _ _ _
  rw [← sampleBit_eq_ofNat]
  rfl

/-- Settles O31, by what the last sampled bit is. -/
theorem publishTakesTheLastSampleAndTheEdges : Obligations.PublishTakesTheLastSampleAndTheEdges := by
  intro s _
  rw [← sampleBit_eq_ofNat]
  rfl

/-- The instruction of a phase operation runs its action (40_decoder.md R104 to R109). -/
theorem exec_phaseOp_instr (op : PhaseOp) (s : State) : exec op.instr s = .next (phaseAction op s) := by
  cases op <;> rfl

/-! ### What a TTICK does -/

/-- The count meets the compare value, read as numbers (40_decoder.md R102). -/
theorem count_meets_iff (n c : Half) : n + 1 = c ↔ (n.toNat + 1) % 65536 = c.toNat := by
  simp [← BitVec.toNat_inj, BitVec.toNat_add]

theorem ttickOp_of_meets {n c : Half} (h : (n.toNat + 1) % 65536 = c.toNat) : ttickOp true n c = .ttMatch :=
  if_pos ((count_meets_iff n c).mpr h)

theorem ttickOp_of_not_meets {n c : Half} (h : (n.toNat + 1) % 65536 ≠ c.toNat) : ttickOp true n c = .ttCount :=
  if_neg fun he => h ((count_meets_iff n c).mp he)

/-- A compare match leaves the count where it stands. -/
@[simp] theorem compareMatch_tcnt (s : State) : (compareMatch s).tcnt = s.tcnt := by
  simp [compareMatch]

/-- Settles O27: the TTICK at the head of the inputs runs the micro-operation that ACTIVE, TCNT and TCMP select. -/
theorem timerTickCountsAndMatches : Obligations.TimerTickCountsAndMatches := by
  intro s b rest hc hin taken
  obtain ⟨-, hstep, -⟩ := stepRunsTheSelectedInstruction s hc
  have hrun : step s = exec (ttickOp s.active s.tcnt s.tcmp) taken := hstep b rest hin
  refine ⟨fun hidle => ⟨?_, rfl⟩, fun hact hne => ⟨?_, ?_⟩, fun hact heq => ⟨?_, _, rfl, ?_⟩⟩
  · rw [hrun, hidle]
    rfl
  · rw [hrun, hact, ttickOp_of_not_meets hne]
  · rw [BitVec.ofNat_add, BitVec.ofNat_toNat, BitVec.setWidth_eq]
    rfl
  · rw [hrun, hact, ttickOp_of_meets heq]
  · exact compareMatch_tcnt _

/-! ### What a compare match does -/

/-- ReArm writes TCMP alone (40_decoder.md R110). -/
theorem reArm_eq (s : State) : reArm s =
    { s with tcmp := if s.phase = 0 then s.cfg.tPoll else if s.phase = 1 then s.cfg.tBit else s.tcmp } := by
  unfold reArm
  split_ifs <;> rfl

/-- The advanced phase is k exactly where the number it stands for is (40_decoder.md R104). -/
theorem nextPhase_eq_iff {c : Config} (hc : c.wf = true) (p k : Phase) :
    nextPhase c p = k ↔ (p.toNat + 1) % c.phases = k.toNat := by
  obtain ⟨hlo, hhi⟩ := phases_bounds hc
  rw [← BitVec.toNat_inj, nextPhase_toNat p hhi (by omega)]

/-- Settles O28: the phase action is the instruction that PHASE names, and the re-arm reads the advanced PHASE. -/
theorem compareMatchRunsAdvancesAndRearms : Obligations.CompareMatchRunsAdvancesAndRearms := by
  intro s i hc hi p'
  have hop : (phaseOp s.cfg.phases s.phase).instr = i := by
    unfold decodePhase at hi
    split at hi <;> cases hi
    rfl
  have h0 := nextPhase_eq_iff hc s.phase 0
  have h1 := nextPhase_eq_iff hc s.phase 1
  refine ⟨_, hop ▸ exec_phaseOp_instr _ _, ?_⟩
  simp only [exec, execTtMatch, compareMatch, reArm_eq, phaseAction_cfg, phaseAction_tcmp, h0, h1]
  rfl

/-- What a compare match does to ACC, PHASE, LATCH and CLK: its phase action, and the advance. -/
@[simp] theorem compareMatch_acc (s : State) :
    (compareMatch s).acc = (phaseAction (phaseOp s.cfg.phases s.phase) s).acc := by simp [compareMatch]
@[simp] theorem compareMatch_phase (s : State) : (compareMatch s).phase = nextPhase s.cfg s.phase := by simp [compareMatch]
@[simp] theorem compareMatch_latch (s : State) :
    (compareMatch s).latch = (phaseAction (phaseOp s.cfg.phases s.phase) s).latch := by simp [compareMatch]
@[simp] theorem compareMatch_clk (s : State) :
    (compareMatch s).clk = (phaseAction (phaseOp s.cfg.phases s.phase) s).clk := by simp [compareMatch]

/-! ### Which instructions write KEYS, NEWP and READY -/

/-- What a publication writes for the host: KEYS, NEWP and READY (40_decoder.md R109). -/
def published (s : State) : Half × Half × Bool := (s.keys, s.newp, s.ready)

theorem published_eq_iff (s t : State) :
    published t = published s ↔ t.keys = s.keys ∧ t.newp = s.newp ∧ t.ready = s.ready := by
  simp [published]

/-- From s to t, KEYS is taken from ACC and the bits that this takes from 0 to 1 are added to NEWP (40_decoder.md R109). -/
def PublishesEdges (s t : State) : Prop :=
  t.newp = s.newp ||| (t.keys &&& ~~~s.keys) ∧ t.keys = t.acc ∧ t.ready = true

theorem publishPhase_publishesEdges (s : State) : PublishesEdges s (publishPhase s) := ⟨rfl, rfl, rfl⟩

/-- The compare match at the publishing phase publishes: the advance and the re-arm touch none of the registers. -/
theorem compareMatch_publishesEdges {s : State} (hop : phaseOp s.cfg.phases s.phase = .publish) :
    PublishesEdges s (compareMatch s) := by
  simpa [PublishesEdges, compareMatch, phaseAction, hop] using publishPhase_publishesEdges s

/-- The other phase actions publish nothing (40_decoder.md R105 to R108). -/
theorem published_phaseAction {op : PhaseOp} (h : op ≠ .publish) (s : State) : published (phaseAction op s) = published s := by
  cases op with
  | publish => exact absurd rfl h
  | latch | unlatch | clkhi p | sample p => rfl

/-- A compare match publishes what its phase action publishes. -/
theorem published_compareMatch (s : State) :
    published (compareMatch s) = published (phaseAction (phaseOp s.cfg.phases s.phase) s) := by
  simp [published, compareMatch]

theorem published_raiseDiag (d : Diag) (s : State) : published (raiseDiag d s) = published s := by
  simp [published]

theorem published_resolve (idx : BitVec 3) (s : State) : published (resolve idx s).2 = published s := by
  rcases resolve_cases idx s with ⟨_, h⟩ | ⟨_, h⟩ <;> rw [h]
  exact published_raiseDiag _ _

/-- An instruction other than GETPRESSED that neither publishes nor initialises the decoder leaves what is published
(40_decoder.md R113). -/
theorem exec_keeps_published {i : Instr} {s t : State} (h : exec i s = .next t) (hpressed : i ≠ .getpressed)
    (hpublish : i ≠ .phPublish) (hmatch : i = .ttMatch → phaseOp s.cfg.phases s.phase ≠ .publish)
    (hstart : i = .start → s.active = true) : published t = published s := by
  cases i with
  | capture _ | msIdle | msCount | seqEndPrep | seqEndValve | seqEndDelay | seqEndRelease =>
    exact eq_of_maskSequencer published (fun _ => rfl) (maskSequencer_exec rfl h)
  | ttMatch => cases h; exact (published_compareMatch _).trans (published_phaseAction (hmatch rfl) _)
  | start => cases h; rw [if_pos (hstart rfl)]; exact published_raiseDiag .reinit s
  | ropen idx | rclose idx | risopen idx | risclosed idx => cases h; exact published_resolve idx s
  | illegal _ => cases h; exact published_raiseDiag .badcmd s
  | getpressed => exact absurd rfl hpressed
  | phPublish => exact absurd rfl hpublish
  | stop | getheld | setv _ | setd _ | getstatus | phLatch | phUnlatch | phClkhi _ | phSample _ | ttIdle | ttCount =>
    cases h; rfl

/-- Settles O10: a publication takes KEYS from ACC and the edges from the previous KEYS, alone or in a compare match; START and
GETPRESSED clear; the rest is `exec_keeps_published`. -/
theorem newPressesAccumulateRisingEdges : Obligations.NewPressesAccumulateRisingEdges := by
  intro i s t h publishes initialises
  refine ⟨?publish, ?init, ?pressed, fun hp hi => ?other⟩
  case publish =>
    rintro (rfl | ⟨rfl, hop⟩) <;> cases h
    · exact publishPhase_publishesEdges s
    · exact compareMatch_publishesEdges (s := { s with tcnt := 0 }) hop
  case init =>
    rintro ⟨rfl, hstopped⟩
    cases h
    simp [hstopped]
  case pressed =>
    rintro rfl
    cases h
    rfl
  case other =>
    have hactive : i = .start → s.active = true := fun he => by
      by_contra hne
      exact hi ⟨he, by simpa using hne⟩
    by_cases hg : i = .getpressed
    · subst hg
      cases h
      exact ⟨rfl, rfl, fun hne => absurd rfl hne⟩
    · obtain ⟨hk, hn, hr⟩ := (published_eq_iff s t).mp
        (exec_keeps_published h hg (fun he => hp (.inl he)) (fun he hop => hp (.inr ⟨he, hop⟩)) hactive)
      exact ⟨hk, hr, fun _ => hn⟩

end Sys2Proof.Machine
end

section
/-! SUPPORT. Runs of TTICKs (40_decoder.md R103, R111, R112): what holds after n of them, one tick at a time; the interval from a cleared
count to the compare match; and the poll cycle, whose state after n ticks is `InCycle`. -/

namespace Sys2Proof.Machine

/-! ### Runs, one TTICK at a time -/

/-- The run that takes n TTICKs with DATA levels d from s ends in a state of P, whatever inputs wait behind them. -/
def AfterTticks (n : Nat) (d : Nat → Bool) (s : State) (P : State → Prop) : Prop :=
  ∀ rest, ∃ t, Sys2Proof.core.run n { s with inputs := tticks n d ++ rest } = .next t ∧ t.inputs = rest ∧ P t

theorem AfterTticks.runEvents {n : Nat} {d : Nat → Bool} {s : State} {P : State → Prop} (h : AfterTticks n d s P) :
    ∃ t, runEvents (tticks n d) s = .next t ∧ P t := by
  obtain ⟨t, hrun, -, ht⟩ := h []
  have hlen : (tticks n d).length = n := by simp [tticks]
  rw [List.append_nil] at hrun
  refine ⟨t, ?_, ht⟩
  rw [Machine.runEvents, hlen]
  exact hrun

/-- One TTICK with level b takes t to u, the inputs after it being rest (40_decoder.md R102). -/
def Ttick (b : Bool) (rest : List Event) (t u : State) : Prop :=
  exec (ttickOp t.active t.tcnt t.tcmp) (arrive (.ttick b) rest t) = .next u

/-- One TTICK more, with the level of the last one. -/
theorem AfterTticks.succ {n : Nat} {d : Nat → Bool} {s : State} {P Q : State → Prop} (h : AfterTticks n d s P)
    (hwf : ∀ t, P t → t.cfg.wf = true) (hstep : ∀ rest t u, P t → Ttick (d (n + 1)) rest t u → Q u) :
    AfterTticks (n + 1) d s Q := by
  intro rest
  obtain ⟨t, hrun, hin, ht⟩ := h (.ttick (d (n + 1)) :: rest)
  obtain ⟨u, hu⟩ := exec_completes (ttickOp t.active t.tcnt t.tcmp) (arrive (.ttick (d (n + 1))) rest t)
  have htick : step t = .next u := by
    rw [step_of_nextEvent (hwf t ht) (nextEvent_tick hin), runEvent_timer]
    exact hu
  have hleft : u.inputs = rest :=
    eq_of_maskDecoder State.inputs (fun _ => rfl) (maskDecoder_exec (ofDecoder_ttickOp _ _ _) hu)
  refine ⟨u, ?_, hleft, hstep rest t u ht hu⟩
  rw [tticks_succ, List.append_assoc]
  exact run_snoc hrun htick

/-- What holds at the start and is carried from each of the first N ticks to the next holds after each of them. -/
theorem afterTticks_of_step {N : Nat} {d : Nat → Bool} {s : State} {P : Nat → State → Prop}
    (hstart : ∀ rest, P 0 { s with inputs := rest }) (hwf : ∀ n t, P n t → t.cfg.wf = true)
    (hstep : ∀ n rest t u, n + 1 ≤ N → P n t → Ttick (d (n + 1)) rest t u → P (n + 1) u) :
    ∀ n, n ≤ N → AfterTticks n d s (P n) := by
  intro n hn
  induction n with
  | zero => exact fun rest => ⟨_, rfl, rfl, hstart rest⟩
  | succ n ih => exact (ih (by omega)).succ (hwf n) fun rest t u => hstep n rest t u hn

/-! ### A TTICK of an active timer -/

/-- The period of a compare value, by the number it stands for (00_scope.md R11). -/
theorem per_eq (c : Half) : per c = if c.toNat = 0 then 65536 else c.toNat := by
  simp [per, ← BitVec.toNat_inj]

/-- Below the period the tick counts (40_decoder.md R103). -/
theorem Ttick.counts {b : Bool} {rest : List Event} {t u : State} (h : Ttick b rest t u) (hact : t.active = true)
    (hlt : t.tcnt.toNat + 1 < per t.tcmp) : u = { arrive (.ttick b) rest t with tcnt := tickCount t.tcnt } := by
  have hne : (t.tcnt.toNat + 1) % 65536 ≠ t.tcmp.toNat := by
    have := t.tcmp.isLt
    rw [per_eq] at hlt
    split at hlt <;> omega
  rw [Ttick, hact, ttickOp_of_not_meets hne] at h
  cases h
  rfl

/-- At the period it matches (40_decoder.md R103). -/
theorem Ttick.meets {b : Bool} {rest : List Event} {t u : State} (h : Ttick b rest t u) (hact : t.active = true)
    (heq : t.tcnt.toNat + 1 = per t.tcmp) : u = compareMatch { arrive (.ttick b) rest t with tcnt := 0 } := by
  have hmeets : (t.tcnt.toNat + 1) % 65536 = t.tcmp.toNat := by
    have := t.tcmp.isLt
    rw [per_eq] at heq
    split at heq <;> omega
  rw [Ttick, hact, ttickOp_of_meets hmeets] at h
  cases h
  rfl

/-- The count below the period does not wrap. -/
theorem tickCount_toNat {n c : Half} (h : n.toNat + 1 < per c) : (tickCount n).toNat = n.toNat + 1 := by
  have hper : per c ≤ 65536 := by
    have := c.isLt
    rw [per_eq]
    split <;> omega
  rw [tickCount, BitVec.toNat_add_of_lt (by simp; omega)]
  rfl

/-! ### The interval from a cleared count to the compare match -/

/-- The state without what a TTICK writes that only counts: two states with the same image agree on every other element. -/
def maskCount (s : State) : State :=
  { s with tcnt := 0, data := false, trace := [], inputs := [], now := 0 }

/-- n TTICKs that only counted lead from s to t. -/
structure CountedTo (s : State) (n : Nat) (t : State) : Prop where
  mask  : maskCount t = maskCount s
  count : t.tcnt.toNat = n

/-- An observation that masking does not change is the same before and after counting. -/
theorem CountedTo.eq {s t : State} {n : Nat} (h : CountedTo s n t) {α : Type} (f : State → α)
    (hf : ∀ u, f (maskCount u) = f u) : f t = f s := by
  rw [← hf t, h.mask, hf]

theorem CountedTo.cfg {s t : State} {n : Nat} (h : CountedTo s n t) : t.cfg = s.cfg := h.eq State.cfg fun _ => rfl
theorem CountedTo.active {s t : State} {n : Nat} (h : CountedTo s n t) : t.active = s.active := h.eq State.active fun _ => rfl
theorem CountedTo.phase {s t : State} {n : Nat} (h : CountedTo s n t) : t.phase = s.phase := h.eq State.phase fun _ => rfl
theorem CountedTo.tcmp {s t : State} {n : Nat} (h : CountedTo s n t) : t.tcmp = s.tcmp := h.eq State.tcmp fun _ => rfl

/-- From TCNT = 0 an active timer only counts, up to one tick before the end of the period (40_decoder.md R103). -/
theorem afterTticks_counting {s : State} (d : Nat → Bool) (hc : s.cfg.wf = true) (hact : s.active = true) (hzero : s.tcnt = 0)
    (n : Nat) (hn : n + 1 ≤ per s.tcmp) : AfterTticks n d s (CountedTo s n) := by
  refine afterTticks_of_step (N := per s.tcmp - 1) (fun rest => ⟨rfl, by simp [hzero]⟩) (fun n t ht => by rwa [ht.cfg])
    (fun n rest t u hlt ht hu => ?_) n (by omega)
  have hbelow : t.tcnt.toNat + 1 < per t.tcmp := by rw [ht.tcmp, ht.count]; omega
  rw [hu.counts (ht.active.trans hact) hbelow]
  exact ⟨ht.mask, (tickCount_toNat hbelow).trans (by rw [ht.count])⟩

/-- Settles O32: per(TCMP) - 1 ticks only count, and the next one matches. -/
theorem compareMatchComesAfterPerTicks : Obligations.CompareMatchComesAfterPerTicks := by
  intro s d hc hact hzero period
  have hper : period = per s.tcmp := (per_eq s.tcmp).symm
  rw [hper]
  refine ⟨fun n hn => ?count, ?last⟩
  case count =>
    obtain ⟨t, hrun, ht⟩ := (afterTticks_counting d hc hact hzero n hn).runEvents
    exact ⟨t, hrun, ht.count, ht.phase, ht.tcmp, ht.eq State.acc fun _ => rfl, ht.eq State.keys fun _ => rfl,
      ht.eq State.newp fun _ => rfl, ht.eq State.latch fun _ => rfl, ht.eq State.clk fun _ => rfl⟩
  case last =>
    obtain ⟨m, hm⟩ : ∃ m, per s.tcmp = m + 1 := Nat.exists_eq_succ_of_ne_zero (per_pos s.tcmp).ne'
    obtain ⟨hlo, hhi⟩ := phases_bounds hc
    rw [hm]
    refine ((afterTticks_counting d hc hact hzero m hm.ge).succ (fun t ht => by rwa [ht.cfg]) fun rest t u ht hu => ?_).runEvents
    rw [hu.meets (ht.active.trans hact) (by rw [ht.tcmp, hm, ht.count])]
    refine ⟨compareMatch_tcnt _, ?_⟩
    rw [compareMatch_phase, arrive_cfg, arrive_phase, ht.cfg, ht.phase, nextPhase_toNat _ hhi (by omega)]

end Sys2Proof.Machine
end

section
/-! SUPPORT. The poll cycle (40_decoder.md R111, R112): the intervals of the phases one after another, and the state after each tick of
the cycle, with the bits sampled so far in ACC. -/

namespace Sys2Proof.Machine

/-! ### The ticks of a cycle -/

/-- The tick of a poll cycle at which the interval of phase p begins: the long interval comes first (40_decoder.md R110, R111). -/
def phaseStart (c : Config) : Nat → Nat
  | 0 => 0
  | p + 1 => phaseStart c p + per (if p = 0 then c.tPoll else c.tBit)

theorem phaseStart_succ (c : Config) (p : Nat) : phaseStart c (p + 1) = per c.tPoll + p * per c.tBit := by
  induction p with
  | zero => simp [phaseStart]
  | succ p ih => rw [phaseStart, ih, if_neg p.succ_ne_zero, Nat.succ_mul, Nat.add_assoc]

theorem phaseStart_strictMono (c : Config) : StrictMono (phaseStart c) :=
  strictMono_nat_of_lt_succ fun _ => Nat.lt_add_of_pos_right (per_pos _)

/-! ### The bits sampled so far -/

/-- The n lowest bits of b. -/
def lowBits (n : Nat) (b : Half) : Half := (b.setWidth n).setWidth 16

@[simp] theorem lowBits_getLsbD (n : Nat) (b : Half) (i : Nat) :
    (lowBits n b).getLsbD i = (decide (i < n) && b.getLsbD i) := by
  by_cases hi : i < 16
  · simp [lowBits, hi]
  · simp [lowBits, hi, BitVec.getLsbD_of_ge b i (by omega)]

theorem lowBits_zero (b : Half) : lowBits 0 b = 0 := BitVec.eq_of_getLsbD_eq fun i _ => by simp

theorem sampleBit_getLsbD (data : Bool) (k : Nat) {i : Nat} (hi : i < 16) :
    (sampleBit data k).getLsbD i = (!data && decide (i = k)) := by
  cases data with
  | true => simp [sampleBit]
  | false =>
    have hshift : (!decide (i < k) && decide (i - k = 0)) = decide (i = k) := by
      rw [← decide_not, ← Bool.decide_and]
      exact decide_eq_decide.mpr (by omega)
    simpa [sampleBit, hi] using hshift

/-- A pressed button reads 0, so the inverted sample of bit n adds that bit (40_decoder.md R108). -/
theorem lowBits_succ (n : Nat) (b : Half) : lowBits (n + 1) b = lowBits n b ||| sampleBit (!b.getLsbD n) n := by
  apply BitVec.eq_of_getLsbD_eq
  intro i hi
  rw [BitVec.getLsbD_or, lowBits_getLsbD, lowBits_getLsbD, sampleBit_getLsbD _ _ hi]
  by_cases hin : i = n
  · simp [hin]
  · have hbelow : i < n + 1 ↔ i < n := by omega
    simp [hin, hbelow]

theorem lowBits_of_lt {n : Nat} {b : Half} (hb : b.toNat < 2 ^ n) : lowBits n b = b :=
  BitVec.eq_of_toNat_eq (by simp [lowBits, Nat.mod_eq_of_lt hb, Nat.mod_eq_of_lt b.isLt])

/-- At the match that ends the interval of each sampling phase 2k + 3, DATA reads 1 - B[k] (40_decoder.md R112). -/
def CarriesBits (c : Config) (b : Half) (d : Nat → Bool) : Prop :=
  ∀ k, k < c.nbits → d (phaseStart c (2 * k + 4)) = !b.getLsbD k

/-! ### What the phase action does to ACC and LATCH -/

/-- Before phase p the p/2 - 1 lowest bits are in ACC; the action of phase p keeps this up, from the clear at phase 0 to the last sample
at the publishing phase (40_decoder.md R105 to R109). -/
theorem phaseAction_acc {s : State} {b : Half} (hc : s.cfg.wf = true) (hlt : s.phase.toNat < s.cfg.phases)
    (hacc : 1 ≤ s.phase.toNat → s.acc = lowBits (s.phase.toNat / 2 - 1) b)
    (hdata : ∀ k, s.phase.toNat = 2 * k + 3 → s.data = !b.getLsbD k) :
    (phaseAction (phaseOp s.cfg.phases s.phase) s).acc = lowBits ((s.phase.toNat + 1) / 2 - 1) b := by
  have hphases := Laws.phases_of_wf hc
  have hsampled (k : Nat) (hk : s.phase.toNat = 2 * k + 3) :
      (sampleInto k s).acc = lowBits ((s.phase.toNat + 1) / 2 - 1) b := by
    rw [sampleInto_acc, hdata k hk, hacc (by omega), show s.phase.toNat / 2 - 1 = k by omega, ← lowBits_succ]
    exact congrArg (lowBits · b) (by omega)
  unfold phaseOp
  split_ifs with hlatch hunlatch heven hsample
  · rw [hlatch]
    exact (lowBits_zero b).symm
  · exact (hacc (by omega)).trans (congrArg (lowBits · b) (by omega))
  · exact (hacc (by omega)).trans (congrArg (lowBits · b) (by omega))
  · exact hsampled (samplePosition s.phase) (by unfold samplePosition; omega)
  · exact hsampled (s.cfg.nbits - 1) (by omega)

/-- LATCH is low once phase 1 has run (40_decoder.md R106); no later phase writes it. -/
theorem phaseAction_latch {s : State} (hp : 1 ≤ s.phase.toNat) (hlatch : 2 ≤ s.phase.toNat → s.latch = false) (n : Nat) :
    (phaseAction (phaseOp n s.phase) s).latch = false := by
  unfold phaseOp
  rw [if_neg (by omega)]
  split_ifs
  · rfl
  all_goals exact hlatch (by omega)

/-- Only the last phase publishes (40_decoder.md R104). -/
theorem last_of_phaseOp_publish {n : Nat} {p : Phase} (h : phaseOp n p = .publish) : n - 1 ≤ p.toNat := by
  unfold phaseOp at h
  split_ifs at h
  omega

/-! ### The state after each tick of a cycle -/

/-- t is a state n ticks into the poll cycle that began in s and carries the bits of b. -/
structure InCycle (s : State) (b : Half) (n : Nat) (t : State) : Prop where
  inv       : DecoderInv t
  cfg       : t.cfg = s.cfg
  active    : t.active = true
  published : published t = published s
  time      : phaseStart s.cfg t.phase.toNat + t.tcnt.toNat = n
  latch     : 2 ≤ t.phase.toNat → t.latch = false
  acc       : 1 ≤ t.phase.toNat → t.acc = lowBits (t.phase.toNat / 2 - 1) b

/-- A cycle begins with PHASE and TCNT at 0. -/
theorem inCycle_start {s : State} (hs : StateInv s) (hact : s.active = true) (hphase : s.phase = 0) (hzero : s.tcnt = 0)
    (b : Half) (rest : List Event) : InCycle s b 0 { s with inputs := rest } where
  inv := { hs with }
  cfg := rfl
  active := hact
  published := rfl
  time := by simp [hphase, hzero, phaseStart]
  latch := by simp [hphase]
  acc := by simp [hphase]

section tick

variable {s t u : State} {b : Half} {d : Nat → Bool} {n : Nat} {rest : List Event}

/-- The interval of the standing phase ends one period after it began. -/
theorem InCycle.phaseStart_next (ht : InCycle s b n t) :
    phaseStart s.cfg (t.phase.toNat + 1) = phaseStart s.cfg t.phase.toNat + per t.tcmp := by
  have hzero : t.phase = 0 ↔ t.phase.toNat = 0 := by simp [← BitVec.toNat_inj]
  rw [phaseStart, ht.inv.armed ht.active, ht.cfg]
  simp only [hzero]

theorem InCycle.now_at_period (ht : InCycle s b n t) (hend : t.tcnt.toNat + 1 = per t.tcmp) :
    n + 1 = phaseStart s.cfg (t.phase.toNat + 1) := by
  rw [ht.phaseStart_next, ← hend, ← ht.time, Nat.add_assoc]

/-- A TTICK keeps the decoder's invariant and leaves the configuration and ACTIVE. -/
theorem InCycle.tick_frame (ht : InCycle s b n t) (hu : Ttick (d (n + 1)) rest t u) :
    DecoderInv u ∧ u.cfg = s.cfg ∧ u.active = true := by
  have hmask := maskDecoder_exec (ofDecoder_ttickOp _ _ _) hu
  have harrived : DecoderInv (arrive (.ttick (d (n + 1))) rest t) := { ht.inv with }
  exact ⟨ttick_keeps_decoderInv harrived hu, (eq_of_maskDecoder State.cfg (fun _ => rfl) hmask).trans ht.cfg,
    (eq_of_maskDecoder State.active (fun _ => rfl) hmask).trans ht.active⟩

/-- The tick at the end of a phase's interval: PHASE advances, the phase's bit is in ACC, and LATCH is low once phase 1 has run. -/
theorem InCycle.tick_at_period (hbits : CarriesBits s.cfg b d) (ht : InCycle s b n t) (hu : Ttick (d (n + 1)) rest t u)
    (hend : t.tcnt.toNat + 1 = per t.tcmp) :
    u.phase.toNat = (t.phase.toNat + 1) % s.cfg.phases ∧ u.tcnt = 0 ∧
    u.acc = lowBits ((t.phase.toNat + 1) / 2 - 1) b ∧ (1 ≤ t.phase.toNat → u.latch = false) := by
  obtain ⟨hlo, hhi⟩ := phases_bounds ht.inv.cfgWf
  have hdata (k : Nat) (hk : t.phase.toNat = 2 * k + 3) : d (n + 1) = !b.getLsbD k := by
    have hlt := ht.inv.phaseLt
    have hphases := Laws.phases_of_wf ht.inv.cfgWf
    rw [ht.now_at_period hend, hk]
    exact hbits k (by rw [← ht.cfg]; omega)
  rw [hu.meets ht.active hend]
  refine ⟨?phase, compareMatch_tcnt _, ?acc, fun hp => ?latch⟩
  case phase =>
    rw [compareMatch_phase, ← ht.cfg]
    exact nextPhase_toNat (c := t.cfg) t.phase hhi (by omega)
  case acc =>
    rw [compareMatch_acc]
    exact phaseAction_acc (s := { arrive (.ttick (d (n + 1))) rest t with tcnt := 0 }) ht.inv.cfgWf ht.inv.phaseLt ht.acc hdata
  case latch =>
    rw [compareMatch_latch]
    exact phaseAction_latch (s := { arrive (.ttick (d (n + 1))) rest t with tcnt := 0 }) hp ht.latch _

/-- A tick inside the cycle leads to the state after one tick more: it counts, or it matches at a phase before the last. -/
theorem InCycle.tick (hbits : CarriesBits s.cfg b d) (ht : InCycle s b n t) (hn : n + 1 < phaseStart s.cfg s.cfg.phases)
    (hu : Ttick (d (n + 1)) rest t u) : InCycle s b (n + 1) u := by
  obtain ⟨hinv, hcfg, hact⟩ := ht.tick_frame hu
  rcases Nat.lt_or_eq_of_le (Nat.succ_le_of_lt (ht.inv.counting ht.active)) with hlt | hend
  · have htime : phaseStart s.cfg t.phase.toNat + (tickCount t.tcnt).toNat = n + 1 := by
      rw [tickCount_toNat hlt, ← Nat.add_assoc, ht.time]
    obtain rfl := hu.counts ht.active hlt
    exact {
      inv := hinv, cfg := hcfg, active := hact, published := ht.published, time := htime, latch := ht.latch, acc := ht.acc }
  · have hnow := ht.now_at_period hend
    have hp : t.phase.toNat + 1 < s.cfg.phases := (phaseStart_strictMono s.cfg).lt_iff_lt.mp (hnow ▸ hn)
    have hop : phaseOp t.cfg.phases t.phase ≠ .publish := fun h => by
      have := last_of_phaseOp_publish h
      rw [ht.cfg] at this
      omega
    obtain ⟨hphase, hzero, hacc, hlatch⟩ := ht.tick_at_period hbits hu hend
    rw [Nat.mod_eq_of_lt hp] at hphase
    exact {
      inv := hinv, cfg := hcfg, active := hact
      published := by
        rw [hu.meets ht.active hend]
        exact (published_compareMatch _).trans ((published_phaseAction hop _).trans ht.published)
      time := by simp [hphase, hzero, hnow]
      latch := fun h => hlatch (by omega)
      acc := fun _ => by rw [hacc, hphase] }

/-- The tick at which a cycle ends is the end of the last phase's interval (40_decoder.md R111). -/
theorem InCycle.at_cycle_end (ht : InCycle s b n t) (hn : n + 1 = phaseStart s.cfg s.cfg.phases) :
    t.tcnt.toNat + 1 = per t.tcmp ∧ t.phase.toNat + 1 = s.cfg.phases := by
  have hmono := phaseStart_strictMono s.cfg
  have hle : phaseStart s.cfg (t.phase.toNat + 1) ≤ n + 1 := by
    rw [hn]
    exact hmono.monotone (by rw [← ht.cfg]; exact ht.inv.phaseLt)
  have hend : t.tcnt.toNat + 1 = per t.tcmp := by
    have hcount := ht.inv.counting ht.active
    have hnext := ht.phaseStart_next
    have htime := ht.time
    omega
  exact ⟨hend, hmono.injective ((ht.now_at_period hend).symm.trans hn)⟩

/-- The last tick of the cycle publishes the bits it carried and begins the next cycle (40_decoder.md R109 to R112). -/
theorem InCycle.last_tick (hbits : CarriesBits s.cfg b d) (hb : b.toNat < 2 ^ s.cfg.nbits) (ht : InCycle s b n t)
    (hn : n + 1 = phaseStart s.cfg s.cfg.phases) (hu : Ttick (d (n + 1)) rest t u) :
    u.keys = b ∧ u.ready = true ∧ u.newp = s.newp ||| (b &&& ~~~s.keys) ∧
    u.active = true ∧ u.phase = 0 ∧ u.tcnt = 0 ∧ u.tcmp = s.cfg.tPoll ∧ u.latch = false ∧ u.clk = false := by
  obtain ⟨hinv, hcfg, hact⟩ := ht.tick_frame hu
  have hphases : 8 ≤ s.cfg.nbits ∧ s.cfg.phases = 2 + 2 * s.cfg.nbits := by
    have := Laws.phases_of_wf (ht.cfg ▸ ht.inv.cfgWf)
    omega
  obtain ⟨hend, hlast⟩ := ht.at_cycle_end hn
  have hop : phaseOp t.cfg.phases t.phase = .publish := phaseOp_publish (by omega) (by omega) (by rw [ht.cfg]; omega)
  obtain ⟨hphase, hzero, hacc, hlatch⟩ := ht.tick_at_period hbits hu hend
  rw [hlast, Nat.mod_self] at hphase
  have hstart : u.phase = 0 := BitVec.eq_of_toNat_eq hphase
  have hsampled : u.acc = b := by
    rw [hacc, show (t.phase.toNat + 1) / 2 - 1 = s.cfg.nbits by omega, lowBits_of_lt hb]
  have hmatch := hu.meets ht.active hend
  obtain ⟨hnewp, hkeys, hready⟩ : PublishesEdges t u := hmatch ▸ compareMatch_publishesEdges hop
  have hclk : u.clk = false := by
    rw [hmatch, compareMatch_clk]
    show (phaseAction (phaseOp t.cfg.phases t.phase) _).clk = false
    rw [hop]
    rfl
  obtain ⟨hkeys₀, hnewp₀, -⟩ := (published_eq_iff s t).mp ht.published
  rw [hkeys, hsampled, hkeys₀, hnewp₀] at hnewp
  exact ⟨hkeys.trans hsampled, hready, hnewp, hact, hstart, hzero,
    by rw [hinv.armed hact, if_pos hstart, hcfg], hlatch (by omega), hclk⟩

end tick

/-- Settles O33: `InCycle` holds after every tick before the last, and the last one publishes. -/
theorem pollCycleRoundTrip : Obligations.PollCycleRoundTrip := by
  intro s d b hs hact hphase hzero hb long short length hd
  have hlong : long = per s.cfg.tPoll := (per_eq _).symm
  have hshort : short = per s.cfg.tBit := (per_eq _).symm
  have hlength : phaseStart s.cfg s.cfg.phases = length := by
    obtain ⟨m, hm⟩ : ∃ m, s.cfg.phases = m + 1 := ⟨1 + 2 * s.cfg.nbits, by unfold Config.phases; omega⟩
    rw [hm, phaseStart_succ, ← hlong, ← hshort, ← Nat.add_sub_cancel m 1, ← hm]
  have hbits : CarriesBits s.cfg b d := fun k hk => by
    rw [phaseStart_succ, ← hlong, ← hshort]
    exact hd k hk
  have hcycle (n : Nat) (hn : n < length) : AfterTticks n d s (InCycle s b n) :=
    afterTticks_of_step (N := length - 1) (inCycle_start hs hact hphase hzero b) (fun _ _ ht => ht.inv.cfgWf)
      (fun n rest t u hlt ht hu => ht.tick hbits (by omega) hu) n (by omega)
  refine ⟨fun n hn => ?before, ?last⟩
  case before =>
    obtain ⟨t, hrun, ht⟩ := (hcycle n hn).runEvents
    exact ⟨t, hrun, (published_eq_iff s t).mp ht.published⟩
  case last =>
    obtain ⟨m, hm⟩ : ∃ m, length = m + 1 := ⟨length - 1, by have := per_pos s.cfg.tPoll; omega⟩
    rw [hm] at hcycle hlength ⊢
    exact ((hcycle m (by omega)).succ (fun _ ht => ht.inv.cfgWf)
      fun rest t u ht hu => ht.last_tick hbits hb hlength.symm hu).runEvents

end Sys2Proof.Machine
end

section
/-! SUPPORT. The host's two reads (41_key_access.md R140, R141) and the KeyState view of their responses (R142 to R145). -/

namespace Sys2Proof.Machine

/-! ### A register of few bits -/

/-- The bits from n on of a register below 2^n are 0 (10_state.md R45). -/
theorem getLsbD_eq_false_of_toNat_lt {w n k : Nat} {v : BitVec w} (hv : v.toNat < 2 ^ n) (hk : n ≤ k) :
    v.getLsbD k = false :=
  Nat.testBit_lt_two_pow (hv.trans_le (Nat.pow_le_pow_right Nat.two_pos hk))

/-- On a KeyState within NBITS bits, any reads the whole value (41_key_access.md R145). -/
theorem anyPressed_iff_of_toNat_lt {n : Nat} {ks : Half} (hks : ks.toNat < 2 ^ n) :
    anyPressed n ks = true ↔ ks ≠ 0 := by
  simp [anyPressed, ← BitVec.toNat_inj, Nat.mod_eq_of_lt hks]

/-- The KeyState of a zero-extended register is the register (41_key_access.md R142). -/
theorem keyState_setWidth (ks : Half) : keyState (ks.setWidth 32) = ks :=
  (BitVec.extractLsb'_setWidth_of_le (by decide)).trans BitVec.extractLsb'_eq_self

/-! ### The two reads -/

/-- Settles O8: the response is KEYS, which the invariant keeps below 2^NBITS. -/
theorem getheldReturnsKeys : Obligations.GetheldReturnsKeys := by
  refine ⟨by decide, fun s => ?whole, fun s hs => ⟨_, rfl, fun k hk => ?high⟩⟩
  case whole =>
    rw [BitVec.ofNat_toNat]
    rfl
  case high =>
    have hkeys : (s.keys.setWidth 32).toNat < 2 ^ s.cfg.nbits := by
      rw [BitVec.toNat_setWidth_of_le (by decide)]
      exact hs.keysBits
    exact getLsbD_eq_false_of_toNat_lt hkeys hk

/-- Settles O9: the second read finds the NEWP that the first one cleared. -/
theorem getpressedReadsAndClears : Obligations.GetpressedReadsAndClears := by
  refine ⟨by decide, fun s => ?whole, fun s => ⟨_, _, rfl, rfl, rfl, rfl⟩⟩
  case whole =>
    rw [BitVec.ofNat_toNat]
    rfl

/-! ### The key predicates -/

/-- Settles O12: the bit positions are the table's, and the bounds on the value decide the bits it cannot have. -/
theorem keyPredicatesReadTheirBits : Obligations.KeyPredicatesReadTheirBits := by
  refine ⟨fun ks => ?bits, fun ks hks => ?eight, fun c ks _ hks => anyPressed_iff_of_toNat_lt hks,
    fun s n => ⟨_, rfl, ?held⟩⟩
  case bits => exact ⟨rfl, rfl, rfl, rfl, rfl, rfl, rfl, rfl, rfl, rfl, rfl, rfl⟩
  case eight =>
    have hclear (n : Button) (hn : 8 ≤ n.bit) : key n ks = false := getLsbD_eq_false_of_toNat_lt hks hn
    exact ⟨hclear .x (by decide), hclear .y (by decide), hclear .l (by decide), hclear .r (by decide)⟩
  case held => exact congrArg (key n) (keyState_setWidth s.keys)

end Sys2Proof.Machine
end

section
/-! SUPPORT. The relay commands (42_relay.md R160 to R168): what each does with the relay its index resolves to, and what the two
queries respond after a command that drives the relay. -/

namespace Sys2Proof.Machine

/-! ### The word of a relay command -/

/-- A relay command's word, written as its opcode with the index from bit 24 on, decodes to the command (30_encoding.md R85, R92).
The decoder of commands is the same in every build, so the build of the vectors stands for all. -/
theorem decodeCommand_relay {i : Instr} (op : BitVec 4) (idx : BitVec 3) (hi : Laws.RoundTrip.Statement i)
    (hwf : i.wf Config.vectors.phases = true) (hw : encodeCommand i = some (packCommand op 0 idx 0)) :
    decodeCommand (packCommand op 0 0 0 ||| (idx.setWidth 32 <<< 24)) = i := by
  rw [← packCommand_relay]
  exact (hi Config.vectors rfl hwf).1 _ hw

/-! ### The relay that an index names -/

/-- Resolving an index, in one equation (42_relay.md R163): the relay, and the state with BADIDX raised for a bad index. -/
theorem resolve_eq (idx : BitVec 3) (s : State) :
    resolve idx s = (if s.cfg.nrelays ≤ idx.toNat then 0 else idx.toNat,
      { s with diagBadidx := s.diagBadidx || decide (s.cfg.nrelays ≤ idx.toNat) }) := by
  rcases resolve_cases idx s with ⟨hvalid, h⟩ | ⟨hbad, h⟩
  · simp [h, Nat.not_le.mpr hvalid]
  · simp [h, hbad, raiseDiag]

/-! ### The commands that drive a relay -/

/-- What ROPEN and RCLOSE do, once the index is resolved (42_relay.md R164, R165). -/
theorem exec_ropen (idx : BitVec 3) (s : State) :
    exec (.ropen idx) s = .next (respond 0 (relayOpen (resolve idx s).1 (resolve idx s).2)) := rfl
theorem exec_rclose (idx : BitVec 3) (s : State) :
    exec (.rclose idx) s = .next (respond 0 (relayClose (resolve idx s).1 (resolve idx s).2)) := rfl

/-! ### The queries -/

/-- The responses of the queries, by whether the pin stands at the relay's polarity (42_relay.md R162). -/
theorem flag_isOpen (s : State) (j : Nat) :
    flag (isOpen s j) = if s.rly.getD j false = s.cfg.invert.getD j false then 1 else 0 := by
  simp [flag, isOpen, relayPin, invertAt]
theorem flag_isClosed (s : State) (j : Nat) :
    flag (isClosed s j) = if s.rly.getD j false = s.cfg.invert.getD j false then 0 else 1 := by
  rw [isClosed_eq_not_isOpen]
  simp [flag, isOpen, relayPin, invertAt]

/-- Settles O13: the index resolves in one equation, and each command is its operation on the resolved relay. -/
theorem relayCommandsActOnTheResolvedRelay : Obligations.RelayCommandsActOnTheResolvedRelay := by
  intro s idx
  refine ⟨?ropenWord, ?rcloseWord, ?risopenWord, ?risclosedWord, ?ropen, ?rclose, ?risopen, ?risclosed, ?eight⟩
  case ropenWord => exact decodeCommand_relay 5 idx (Laws.RoundTrip.ropen idx) rfl rfl
  case rcloseWord => exact decodeCommand_relay 6 idx (Laws.RoundTrip.rclose idx) rfl rfl
  case risopenWord => exact decodeCommand_relay 7 idx (Laws.RoundTrip.risopen idx) rfl rfl
  case risclosedWord => exact decodeCommand_relay 8 idx (Laws.RoundTrip.risclosed idx) rfl rfl
  case ropen => rw [exec_ropen, resolve_eq]; rfl
  case rclose => rw [exec_rclose, resolve_eq]; rfl
  case risopen => rw [exec_risopen, flag_isOpen, resolve_eq]; rfl
  case risclosed => rw [exec_risclosed, flag_isClosed, resolve_eq]; rfl
  case eight =>
    intro h
    exact decide_eq_false (by have := idx.isLt; omega)

/-! ### The truth table -/

/-- For a valid index the relay commands act on its relay in the state as it is (42_relay.md R163). -/
theorem resolve_of_lt {idx : BitVec 3} {s : State} (h : idx.toNat < s.cfg.nrelays) : resolve idx s = (idx.toNat, s) :=
  if_pos h
theorem exec_ropen_of_lt {idx : BitVec 3} {s : State} (h : idx.toNat < s.cfg.nrelays) :
    exec (.ropen idx) s = .next (respond 0 (relayOpen idx.toNat s)) := by
  rw [exec_ropen, resolve_of_lt h]
theorem exec_rclose_of_lt {idx : BitVec 3} {s : State} (h : idx.toNat < s.cfg.nrelays) :
    exec (.rclose idx) s = .next (respond 0 (relayClose idx.toNat s)) := by
  rw [exec_rclose, resolve_of_lt h]

/-- The polarity of a relay that the build has (10_state.md R35). -/
theorem getElem?_invert {c : Config} {j : Nat} (h : j < c.nrelays) : c.invert[j]? = some (invertAt c j) := by
  have hj : j < c.invert.length := h
  simp [invertAt, hj]

/-- A relay reads open once it is opened and not once it is closed, whatever its polarity (42_relay.md R160 to R162). -/
theorem isOpen_relayOpen {s : State} {j : Nat} (h : j < s.rly.length) : isOpen (relayOpen j s) j = true := by
  simp [isOpen, relayPin_relayOpen s j h]
theorem isOpen_relayClose {s : State} {j : Nat} (h : j < s.rly.length) : isOpen (relayClose j s) j = false := by
  simp [isOpen, relayPin_relayClose s j h]

/-- The two queries of a valid index respond with what the relay reads, opposite to each other (42_relay.md R166, R167). -/
theorem queries_of_isOpen {idx : BitVec 3} {t : State} {opened : Bool} (h : idx.toNat < t.cfg.nrelays)
    (ho : isOpen t idx.toNat = opened) :
    ∃ u v, exec (.risclosed idx) t = .next u ∧ u.rsp = flag (!opened) ∧
      exec (.risopen idx) t = .next v ∧ v.rsp = flag opened := by
  have hj : (resolve idx t).1 = idx.toNat := congrArg Prod.fst (resolve_of_lt h)
  refine ⟨_, _, exec_risclosed idx t, ?closed, exec_risopen idx t, ?opened⟩
  case closed => rw [respond_rsp, hj, isClosed_eq_not_isOpen, ho]
  case opened => rw [respond_rsp, hj, ho]

/-- Settles O14: the command drives the pin to the level that the polarity gives, and the queries that follow read that pin. -/
theorem relayTruthTable : Obligations.RelayTruthTable := by
  intro s idx hlen hidx
  have hrly : idx.toNat < s.rly.length := hlen ▸ hidx
  have hinvert := getElem?_invert hidx
  refine ⟨?closed, ?opened, fun k hk t ht => ?others⟩
  case closed =>
    obtain ⟨u, v, hqueries⟩ := queries_of_isOpen (t := respond 0 (relayClose idx.toNat s)) hidx (isOpen_relayClose hrly)
    exact ⟨_, u, v, exec_rclose_of_lt hidx, by simp [hrly, hinvert], hqueries⟩
  case opened =>
    obtain ⟨u, v, hqueries⟩ := queries_of_isOpen (t := respond 0 (relayOpen idx.toNat s)) hidx (isOpen_relayOpen hrly)
    exact ⟨_, u, v, exec_ropen_of_lt hidx, by simp [hrly, hinvert], hqueries⟩
  case others =>
    rw [exec_rclose_of_lt hidx, exec_ropen_of_lt hidx] at ht
    rcases ht with ht | ht <;> cases ht <;> exact List.getElem?_set_ne hk.symm

end Sys2Proof.Machine
end

section
/-! SUPPORT. The events of a capture: a step of a held host takes a tick (43_sequencer.md R182), what that tick can do, and what an
MSTICK selects (R186); the durations that no tick and no other command writes (R180, R181). -/

namespace Sys2Proof.Machine

/-! ### The host is held -/

/-- While the host is held, the event a step takes is a tick. -/
theorem nextEvent_held {s : State} (hp : s.pend = true) : ∃ t, (nextEvent s).1 = .tick t := by
  unfold nextEvent
  rw [hp]
  split
  case h_1 taken htaken => exact takeInput_held_tick htaken
  case h_2 => exact ⟨_, rfl⟩

/-- Settles O36, by what the inputs of a held host yield: the first tick, or nothing where they hold commands alone. -/
theorem hostIsHeldWhilePending : Obligations.HostIsHeldWhilePending := by
  intro s hc hp
  refine ⟨nextEvent_held hp, fun cs t rest hi => step_of_nextEvent hc ?tick, fun cs hi => step_of_nextEvent hc ?free⟩
  case tick => simp only [nextEvent, hp, hi, takeInput_held]
  case free => simp [nextEvent, hp, hi, takeInput_held_none]

/-- What a step of a held host does, once its event has arrived: a TTICK writes the decoder alone, and an MSTICK runs what SEQ and W
select. -/
theorem step_cases_of_pend {s t : State} {e : Event} {left : List Event} (hp : s.pend = true) (hn : nextEvent s = (e, left))
    (h : step s = .next t) :
    maskDecoder t = maskDecoder (arrive e left s) ∨
      (e = .mstick ∧ ∃ i, mstickOp s.seq s.w = .ok i ∧ exec i (arrive e left s) = .next t) := by
  obtain ⟨_, i, hi, hexec⟩ := step_cases h
  obtain ⟨tick, he⟩ := nextEvent_held hp
  rw [hn] at hi hexec he
  subst he
  cases tick with
  | timer b =>
    cases hi
    exact .inl (maskDecoder_exec (ofDecoder_ttickOp _ _ _) hexec)
  | ms => exact .inr ⟨rfl, i, hi, hexec⟩

/-! ### The durations -/

/-- A duration command's word, written as its opcode with the duration in the low bits, decodes to the command (30_encoding.md R85). -/
theorem decodeCommand_duration {i : Instr} (op : BitVec 4) (ms : Half) (hi : Laws.RoundTrip.Statement i)
    (hwf : i.wf Config.vectors.phases = true) (hw : encodeCommand i = some (packCommand op 0 0 ms)) :
    decodeCommand (packCommand op 0 0 0 ||| ms.setWidth 32) = i := by
  rw [← packCommand_duration]
  exact (hi Config.vectors rfl hwf).1 _ hw

/-- VMS and DMS (10_state.md R39, R40). -/
def durations (s : State) : Half × Half := (s.vms, s.dms)

theorem durations_raiseDiag (d : Diag) (s : State) : durations (raiseDiag d s) = durations s := by
  simp [durations]

theorem durations_resolve (idx : BitVec 3) (s : State) : durations (resolve idx s).2 = durations s := by
  rcases resolve_cases idx s with ⟨_, h⟩ | ⟨_, h⟩ <;> rw [h]
  exact durations_raiseDiag _ _

/-- The decoder's and the sequencer's writes leave the durations. -/
theorem durations_of_maskDecoder {s t : State} (h : maskDecoder t = maskDecoder s) : durations t = durations s :=
  eq_of_maskDecoder durations (fun _ => rfl) h
theorem durations_of_maskSequencer {s t : State} (h : maskSequencer t = maskSequencer s) : durations t = durations s :=
  eq_of_maskSequencer durations (fun _ => rfl) h

/-- SETV and SETD aside, no instruction writes a duration. -/
theorem exec_durations {i : Instr} {s t : State} (h : exec i s = .next t) (hv : ∀ ms, i ≠ .setv ms)
    (hd : ∀ ms, i ≠ .setd ms) : durations t = durations s := by
  cases i with
  | setv ms => exact absurd rfl (hv ms)
  | setd ms => exact absurd rfl (hd ms)
  | capture _ | msIdle | msCount | seqEndPrep | seqEndValve | seqEndDelay | seqEndRelease =>
    exact durations_of_maskSequencer (maskSequencer_exec rfl h)
  | phLatch | phUnlatch | phClkhi _ | phSample _ | phPublish | ttIdle | ttCount | ttMatch =>
    exact durations_of_maskDecoder (maskDecoder_exec rfl h)
  | start =>
    cases h
    split
    · exact durations_raiseDiag .reinit s
    · rfl
  | illegal w => cases h; exact durations_raiseDiag .badcmd s
  | ropen idx | rclose idx | risopen idx | risclosed idx => cases h; exact durations_resolve idx s
  | stop | getheld | getpressed | getstatus => cases h; rfl

/-- A step of a held host leaves the durations (43_sequencer.md R180, "it cannot change during a capture because the host is held"). -/
theorem step_durations_of_pend {s t : State} (hp : s.pend = true) (h : step s = .next t) : durations t = durations s := by
  rcases step_cases_of_pend hp rfl h with hmask | ⟨-, i, hi, hexec⟩
  · exact (durations_of_maskDecoder hmask).trans rfl
  · exact (durations_of_maskSequencer (maskSequencer_exec (ofSequencer_mstickOp hi) hexec)).trans rfl

/-- Settles O15: SETV and SETD are one equation each, SETV leaves DMS and SETD leaves VMS, and the rest is `exec_durations`. -/
theorem durationsAreWrittenOnlyBySetvAndSetd : Obligations.DurationsAreWrittenOnlyBySetvAndSetd := by
  refine ⟨fun ms s => ⟨?setvWord, ?setdWord, rfl, rfl⟩, fun i s t h => ⟨fun hv => ?vms, fun hd => ?dms⟩, fun s t hp h => ?held⟩
  case setvWord => exact decodeCommand_duration 9 ms (Laws.RoundTrip.setv ms) rfl rfl
  case setdWord => exact decodeCommand_duration 10 ms (Laws.RoundTrip.setd ms) rfl rfl
  case vms =>
    by_cases hd : ∃ ms, i = .setd ms
    · obtain ⟨ms, rfl⟩ := hd
      cases h
      rfl
    · exact congrArg Prod.fst (exec_durations h hv (not_exists.mp hd))
  case dms =>
    by_cases hv : ∃ ms, i = .setv ms
    · obtain ⟨ms, rfl⟩ := hv
      cases h
      rfl
    · exact congrArg Prod.snd (exec_durations h (not_exists.mp hv) hd)
  case held => exact Prod.mk.inj (step_durations_of_pend hp h)

/-! ### What an MSTICK selects -/

/-- With SEQ = IDLE an MSTICK selects MS_IDLE. -/
theorem mstickOp_idle (w : Half) : mstickOp 0 w = .ok .msIdle := rfl

/-- In a wait with at least 2 left an MSTICK counts. -/
theorem mstickOp_count {q : BitVec 3} {w : Half} (h1 : 1 ≤ q.toNat) (h4 : q.toNat ≤ 4) (hw : 2 ≤ w.toNat) :
    mstickOp q w = .ok .msCount := by
  simp [mstickOp, show q.toNat ≠ 0 by omega, show ¬ 5 ≤ q.toNat by omega, show w.toNat ≠ 0 by omega, hw]

/-- A step that takes an MSTICK, by what SEQ and W select. -/
theorem step_mstick {s : State} {rest : List Event} (hc : s.cfg.wf = true) (hi : s.inputs = .mstick :: rest) {i : Instr}
    (hop : mstickOp s.seq s.w = .ok i) : step s = exec i (arrive .mstick rest s) :=
  (step_of_nextEvent hc (nextEvent_tick hi)).trans (runEvent_of_select hop)

/-- A step that takes an MSTICK which selects nothing stops the machine (log 9, log 10). -/
theorem step_mstick_reject {s : State} {rest : List Event} (hc : s.cfg.wf = true) (hi : s.inputs = .mstick :: rest)
    {r : MstickReject} (hop : mstickOp s.seq s.w = .error r) : step s = .fault (faultOf r) :=
  (step_of_nextEvent hc (nextEvent_tick hi)).trans (runEvent_of_reject hop)

/-- Counting takes 1 from the number that W holds, which is at least 1 in a wait (43_sequencer.md R186). -/
theorem toNat_sub_one {w : Half} (hw : 1 ≤ w.toNat) : (w - 1).toNat = w.toNat - 1 := by
  have hle : 1#16 ≤ w := BitVec.le_def.mpr hw
  exact BitVec.toNat_sub_of_le hle

theorem sub_one_eq_ofNat {w : Half} (hw : 1 ≤ w.toNat) : w - 1 = BitVec.ofNat 16 (w.toNat - 1) := by
  rw [← toNat_sub_one hw, BitVec.ofNat_toNat, BitVec.setWidth_eq]

/-- Settles O20, by SEQ and W. -/
theorem mstickCountsOrCompletes : Obligations.MstickCountsOrCompletes := by
  intro s rest hc hi taken
  have hrun {i : Instr} (hop : mstickOp s.seq s.w = .ok i) : step s = exec i taken := step_mstick hc hi hop
  refine ⟨fun hq => ⟨hrun ?idle, rfl⟩, fun h1 h4 hw => ⟨hrun (mstickOp_count h1 h4 hw), ?counted⟩, fun hw hq => hrun ?prep,
    fun hw hq => hrun ?valve, fun hw hq => hrun ?delay, fun hw hq => hrun ?release⟩
  case idle => rw [hq]; exact mstickOp_idle s.w
  case counted => rw [← sub_one_eq_ofNat (by omega)]; rfl
  case prep | valve | delay | release => simp [mstickOp, hq, hw]

/-- Settles O38, by SEQ and W. -/
theorem unreachableSequencerStatesStop : Obligations.UnreachableSequencerStatesStop := by
  intro s rest hc hi
  refine ⟨fun h5 => step_mstick_reject hc hi (r := .seqUndefined) ?undefined,
    fun h1 h4 hw => step_mstick_reject hc hi (r := .waitUnderflow) ?underflow⟩
  case undefined => simp [mstickOp, show s.seq.toNat ≠ 0 by omega, h5]
  case underflow => simp [mstickOp, show s.seq.toNat ≠ 0 by omega, show ¬ 5 ≤ s.seq.toNat by omega, hw]

end Sys2Proof.Machine
end

section
/-! SUPPORT. The waits of a capture (43_sequencer.md R183 to R191): what entering each wait does, as equations, and the capture whose
waits are all 0. -/

namespace Sys2Proof.Machine

/-! ### The effective delay -/

/-- The effective delay as a number: the difference truncated at 0 from valve-open (43_sequencer.md R191). -/
theorem effDelay_toNat (ref : Ref) (d v : Half) :
    (effDelay ref d v).toNat = if ref = .fromOpen then d.toNat - v.toNat else d.toNat := by
  cases ref with
  | fromOpen => exact satSub_toNat d v
  | fromClose => rfl

/-- The effective delay as the word of its number. -/
theorem effDelay_eq (ref : Ref) (d v : Half) :
    effDelay ref d v = if ref = .fromOpen then BitVec.ofNat 16 (d.toNat - v.toNat) else d := by
  cases ref with
  | fromOpen =>
    rw [if_pos rfl, ← satSub_toNat, BitVec.ofNat_toNat, BitVec.setWidth_eq]
    rfl
  | fromClose => rfl

/-- Settles O19: the delay from valve-open is the truncated difference. -/
theorem effectiveDelaySaturates : Obligations.EffectiveDelaySaturates := by
  intro d v
  have hopen (v : Half) : (effDelay .fromOpen d v).toNat = d.toNat - v.toNat := effDelay_toNat .fromOpen d v
  refine ⟨by rw [hopen]; omega, fun hle => BitVec.eq_of_toNat_eq ?saturates, BitVec.eq_of_toNat_eq ?zero, rfl⟩
  case saturates => rw [hopen, Nat.sub_eq_zero_of_le hle]; rfl
  case zero => rw [hopen]; rfl

/-! ### Entering a wait -/

/-- Entering a wait, as an event's outcome: a wait of 0 goes on with its completion, started with W at 0 (43_sequencer.md R185, log 8). -/
theorem next_enterWait (q : BitVec 3) (n : Half) (f : State → State) (s : State) :
    (.next (enterWait q n f s) : Result) =
      if n = 0 then .next (f (expired { s with seq := q, w := n })) else .next { s with seq := q, w := n } := by
  by_cases hn : n = 0
  · rw [if_pos hn, hn, enterWait_zero]
    rfl
  · rw [if_neg hn, enterWait_pos q hn]

/-- Settles O17: each completion is a relay write and the entry into the next wait. -/
theorem completionsEnterTheNextWait : Obligations.CompletionsEnterTheNextWait := by
  intro s valve rel vinv rinv e inValve inDelay inRelease
  have hvalve : exec .seqEndValve s = if effDelay s.cref s.dms s.vms = 0
      then exec .seqEndDelay { inDelay with w := effDelay s.cref s.dms s.vms }
      else .next { inDelay with w := effDelay s.cref s.dms s.vms } := next_enterWait ..
  rw [effDelay_eq] at hvalve
  exact ⟨next_enterWait .., hvalve, next_enterWait .., ⟨_, rfl⟩, ⟨_, rfl⟩, ⟨_, rfl⟩⟩

/-- Settles O18: Complete(RELEASE) is one equation. -/
theorem releaseCompletionEndsTheCapture : Obligations.ReleaseCompletionEndsTheCapture := fun _ => rfl

/-! ### The capture whose waits are all 0 -/

/-- After entering a wait SEQ is IDLE only where the wait is 0 and its completion ends the capture. -/
theorem enterWait_seq_eq_idle_iff {q : BitVec 3} (hq : q ≠ 0) (n : Half) (f : State → State) (s : State) :
    (enterWait q n f s).seq = 0 ↔ n = 0 ∧ (f { s with seq := q, w := n }).seq = 0 := by
  by_cases hn : n = 0
  · rw [hn, enterWait_zero]
    simp
  · rw [enterWait_pos q hn]
    exact iff_of_false hq fun h => hn h.1

theorem completeDelay_seq_eq_idle_iff (s : State) : (completeDelay s).seq = 0 ↔ s.cfg.tRelMs = 0 :=
  (enterWait_seq_eq_idle_iff (by decide) _ _ _).trans (and_iff_left rfl)

theorem completeValve_seq_eq_idle_iff (s : State) :
    (completeValve s).seq = 0 ↔ effDelay s.cref s.dms s.vms = 0 ∧ s.cfg.tRelMs = 0 :=
  (enterWait_seq_eq_idle_iff (by decide) _ _ _).trans (and_congr_right fun _ => completeDelay_seq_eq_idle_iff _)

theorem completePrep_seq_eq_idle_iff (s : State) :
    (completePrep s).seq = 0 ↔ s.vms = 0 ∧ effDelay s.cref s.dms s.vms = 0 ∧ s.cfg.tRelMs = 0 :=
  (enterWait_seq_eq_idle_iff (by decide) _ _ _).trans (and_congr_right fun _ => completeValve_seq_eq_idle_iff _)

/-- After CAPTURE, SEQ is IDLE only where the four waits are 0 (43_sequencer.md R183). -/
theorem execCapture_seq_eq_idle_iff {ref : Ref} {s t : State} (h : execCapture ref s = .next t) :
    t.seq = 0 ↔ s.cfg.tPrepMs = 0 ∧ s.vms = 0 ∧ effDelay ref s.dms s.vms = 0 ∧ s.cfg.tRelMs = 0 := by
  cases h
  exact (enterWait_seq_eq_idle_iff (by decide) _ _ _).trans (and_congr_right fun _ => completePrep_seq_eq_idle_iff _)

/-- A state without a pending capture has SEQ = IDLE (10_state.md R43). -/
theorem SequencerInv.seq_of_not_pend {s : State} (hs : SequencerInv s) (hp : s.pend = false) : s.seq = 0 := by
  have hbusy := hs.pendBusy.symm.trans hp
  simpa [busy, seqIdle] using hbusy

/-- Settles O16: CAPTURE is a relay write and the entry into PREP. -/
theorem captureClosesCueAndEntersPrep : Obligations.CaptureClosesCueAndEntersPrep := by
  refine ⟨by decide, by decide, fun s ref => ?_⟩
  intro cue level waiting e
  have hrun : exec (.capture ref) s = if s.cfg.tPrepMs = 0 then exec .seqEndPrep waiting else .next waiting :=
    next_enterWait ..
  have he : effDelay ref s.dms s.vms = 0 ↔ e = 0 := by
    rw [← BitVec.toNat_inj, effDelay_toNat]
    rfl
  refine ⟨fun h => ?waits, fun h => ?completes, ⟨_, rfl, ?idle⟩, fun hs hp => hs.sequencer.seq_of_not_pend hp⟩
  case waits => rw [hrun, if_neg h]
  case completes => rw [hrun, if_pos h]
  case idle => rw [execCapture_seq_eq_idle_iff rfl, he]

/-- Settles O22: SEQ is IDLE after the event, so the capture has ended and responded, and its items are all in the trace. -/
theorem zeroWaitCaptureIsOneEvent : Obligations.ZeroWaitCaptureIsOneEvent := by
  intro s ref hprep hvms hdms hrel inv cue valve rel
  have hdelay : effDelay ref s.dms s.vms = 0 := by
    rw [hdms, hvms]
    cases ref <;> rfl
  obtain ⟨t, ht, hanswer⟩ := execCapture_captureAnswer ref s
  have hseq : t.seq = 0 := (execCapture_seq_eq_idle_iff ht).mpr ⟨hprep, hvms, hdelay, hrel⟩
  have hpend : t.pend = false := by
    rw [(execCapture_sequencerInv ht).pendBusy, busy, hseq]
    rfl
  obtain ⟨hp, -⟩ | ⟨-, hrsp, -⟩ := hanswer
  · rw [hpend] at hp
    cases hp
  · refine ⟨t, ht, hseq, hpend, hrsp, ?_⟩
    rw [execCapture_trace ht, hdelay]
    simp only [captureItems, prepItems, valveItems, delayItems, hprep, hvms, hrel, if_true]
    rfl

end Sys2Proof.Machine
end

section
/-! SUPPORT. The decoder and the sequencer are independent (43_sequencer.md R193, 60_exceptions.md R234): each of the two ticks runs the
same in a state whose other part is another state's. -/

namespace Sys2Proof.Machine

/-! ### The decoder does not see the sequencer -/

/-- The state with the relays, the sequencer's registers and the host port of another one. -/
def withSequencerOf (d s : State) : State :=
  { s with rly := d.rly, seq := d.seq, w := d.w, cref := d.cref, vms := d.vms, dms := d.dms, pend := d.pend, rsp := d.rsp }

theorem phaseAction_withSequencerOf (op : PhaseOp) (d s : State) :
    phaseAction op (withSequencerOf d s) = withSequencerOf d (phaseAction op s) := by
  cases op <;> rfl

theorem reArm_withSequencerOf (d s : State) : reArm (withSequencerOf d s) = withSequencerOf d (reArm s) := by
  rw [reArm_eq, reArm_eq]
  rfl

theorem compareMatch_withSequencerOf (d s : State) :
    compareMatch (withSequencerOf d s) = withSequencerOf d (compareMatch s) := by
  calc compareMatch (withSequencerOf d s)
    _ = reArm { withSequencerOf d (phaseAction (phaseOp s.cfg.phases s.phase) s) with phase := nextPhase s.cfg s.phase } := by
      rw [← phaseAction_withSequencerOf]
      rfl
    _ = withSequencerOf d (compareMatch s) :=
      reArm_withSequencerOf d { phaseAction (phaseOp s.cfg.phases s.phase) s with phase := nextPhase s.cfg s.phase }

/-- Settles O47: the eight values are those of some state. -/
theorem decoderIgnoresTheSequencer : Obligations.DecoderIgnoresTheSequencer := by
  intro i s t rly seq w vms dms cref pend rsp hi h
  rcases hi with rfl | rfl | rfl <;> cases h
  · rfl
  · rfl
  · exact congrArg _ (compareMatch_withSequencerOf
      { s with rly := rly, seq := seq, w := w, cref := cref, vms := vms, dms := dms, pend := pend, rsp := rsp }
      { s with tcnt := 0 })

/-! ### The sequencer does not see the decoder -/

/-- The state with the decoder's registers and lines of another one. -/
def withDecoderOf (d s : State) : State :=
  { s with
    active := d.active, ready := d.ready, latch := d.latch, clk := d.clk, phase := d.phase
    acc := d.acc, keys := d.keys, newp := d.newp, tcnt := d.tcnt, tcmp := d.tcmp }

/-- Entering a wait commutes with the exchange where its completion does (43_sequencer.md R185). -/
theorem enterWait_withDecoderOf {f : State → State} (d : State) (hf : ∀ u, f (withDecoderOf d u) = withDecoderOf d (f u))
    (q : BitVec 3) (n : Half) (s : State) :
    enterWait q n f (withDecoderOf d s) = withDecoderOf d (enterWait q n f s) := by
  by_cases hn : n = 0
  · rw [hn, enterWait_zero, enterWait_zero]
    exact hf { s with seq := q, w := 0 }
  · rw [enterWait_pos q hn, enterWait_pos q hn]
    rfl

theorem completeRelease_withDecoderOf (d s : State) :
    completeRelease (withDecoderOf d s) = withDecoderOf d (completeRelease s) := rfl

theorem completeDelay_withDecoderOf (d s : State) : completeDelay (withDecoderOf d s) = withDecoderOf d (completeDelay s) :=
  enterWait_withDecoderOf d (completeRelease_withDecoderOf d) _ _ (relayClose s.cfg.relIdx s)

theorem completeValve_withDecoderOf (d s : State) : completeValve (withDecoderOf d s) = withDecoderOf d (completeValve s) :=
  enterWait_withDecoderOf d (completeDelay_withDecoderOf d) _ _ (relayOpen s.cfg.valveIdx s)

theorem completePrep_withDecoderOf (d s : State) : completePrep (withDecoderOf d s) = withDecoderOf d (completePrep s) :=
  enterWait_withDecoderOf d (completeValve_withDecoderOf d) _ _ (relayClose s.cfg.valveIdx s)

/-- What an MSTICK runs commutes with the exchange. -/
theorem exec_withDecoderOf {i : Instr} {s t : State} (d : State) (hi : i = .msIdle ∨ i = .msCount ∨ i = .seqEndPrep ∨
    i = .seqEndValve ∨ i = .seqEndDelay ∨ i = .seqEndRelease) (h : exec i s = .next t) :
    exec i (withDecoderOf d s) = .next (withDecoderOf d t) := by
  rcases hi with rfl | rfl | rfl | rfl | rfl | rfl <;> cases h
  · rfl
  · rfl
  · exact congrArg _ (completePrep_withDecoderOf d (expired s))
  · exact congrArg _ (completeValve_withDecoderOf d (expired s))
  · exact congrArg _ (completeDelay_withDecoderOf d (expired s))
  · rfl

/-- Settles O48: the ten values are those of some state. -/
theorem sequencerIgnoresTheDecoder : Obligations.SequencerIgnoresTheDecoder := by
  intro i s t active ready latch clk phase acc keys newp tcnt tcmp hi h
  exact exec_withDecoderOf { s with
    active := active, ready := ready, latch := latch, clk := clk, phase := phase
    acc := acc, keys := keys, newp := newp, tcnt := tcnt, tcmp := tcmp } hi h

end Sys2Proof.Machine
end

section
/-! SUPPORT. Nothing aborts a capture (43_sequencer.md R193): a completion moves it on to a later wait or ends it, and no other step of a
held host moves it. -/

namespace Sys2Proof.Machine

/-- Where the capture of s still runs in t, it has the same CREF and stands in a wait later than wait k. -/
def MovesOn (k : Nat) (s t : State) : Prop :=
  t.cref = s.cref ∧ (t.pend = true → k < t.seq.toNat)

/-- A wait is later than those before it, and so is what its completion moves on to (43_sequencer.md R185). -/
theorem enterWait_movesOn {k : Nat} {q : BitVec 3} (hq : k < q.toNat) {f : State → State}
    (hf : ∀ u, MovesOn q.toNat u (f u)) (n : Half) (s : State) : MovesOn k s (enterWait q n f s) := by
  by_cases hn : n = 0
  · rw [hn, enterWait_zero]
    obtain ⟨hcref, hlater⟩ := hf { s with seq := q, w := 0 }
    exact ⟨hcref, fun hp => hq.trans (hlater hp)⟩
  · rw [enterWait_pos q hn]
    exact ⟨rfl, fun _ => hq⟩

/-! The completions, last first (43_sequencer.md R187 to R190). -/

theorem completeRelease_movesOn (k : Nat) (s : State) : MovesOn k s (completeRelease s) := ⟨rfl, nofun⟩

theorem completeDelay_movesOn (s : State) : MovesOn 3 s (completeDelay s) :=
  enterWait_movesOn (q := seqRelease) (by decide) (completeRelease_movesOn _) _ (relayClose s.cfg.relIdx s)

theorem completeValve_movesOn (s : State) : MovesOn 2 s (completeValve s) :=
  enterWait_movesOn (q := seqDelay) (by decide) completeDelay_movesOn _ (relayOpen s.cfg.valveIdx s)

theorem completePrep_movesOn (s : State) : MovesOn 1 s (completePrep s) :=
  enterWait_movesOn (q := seqValve) (by decide) completeValve_movesOn _ (relayClose s.cfg.valveIdx s)

/-- What an MSTICK does while a capture runs: it takes 1 from W, or its wait is over and the capture moves on. -/
theorem mstick_cases_of_pend {i : Instr} {s t : State} (hs : SequencerInv s) (hp : s.pend = true)
    (hi : mstickOp s.seq s.w = .ok i) (h : exec i s = .next t) :
    (2 ≤ s.w.toNat ∧ t = { s with w := s.w - 1 }) ∨
      (s.w.toNat = 1 ∧ MovesOn s.seq.toNat s t ∧ CaptureAnswer s.rsp t) := by
  have hbusy : s.seq.toNat ≠ 0 := fun h0 => by
    have hidle : s.seq = seqIdle := BitVec.eq_of_toNat_eq h0
    rw [hs.pendBusy, busy, hidle] at hp
    cases hp
  rcases mstickOp_cases s.seq s.w with ⟨h0, he⟩ | ⟨_, he⟩ | ⟨_, _, _, he⟩ | ⟨_, _, hw, he⟩ | ⟨hw, hq, he⟩ | ⟨hw, hq, he⟩ |
    ⟨hw, hq, he⟩ | ⟨hw, _, he⟩ <;> rw [he] at hi <;> cases hi <;> cases h
  · exact absurd h0 hbusy
  · exact .inl ⟨hw, rfl⟩
  · exact .inr ⟨hw, hq.symm ▸ completePrep_movesOn (expired s), completePrep_captureAnswer hp⟩
  · exact .inr ⟨hw, hq.symm ▸ completeValve_movesOn (expired s), completeValve_captureAnswer hp⟩
  · exact .inr ⟨hw, hq.symm ▸ completeDelay_movesOn (expired s), completeDelay_captureAnswer hp⟩
  · exact .inr ⟨hw, completeRelease_movesOn _ (expired s), completeRelease_captureAnswer _ (expired s)⟩

/-- Settles O23: a TTICK and a counting MSTICK keep the capture in its wait; where the wait is over it moves on, or it has ended. -/
theorem captureIsNeverAborted : Obligations.CaptureIsNeverAborted := by
  intro s t hs hp h
  obtain ⟨hvms, hdms⟩ : t.vms = s.vms ∧ t.dms = s.dms := Prod.mk.inj (step_durations_of_pend hp h)
  rcases step_cases_of_pend hp rfl h with hmask | ⟨hevent, i, hi, hexec⟩
  · have hseq : t.seq = s.seq := (congrArg State.seq hmask :)
    have hw : t.w = s.w := (congrArg State.w hmask :)
    have hrly : t.rly = s.rly := (congrArg State.rly hmask :)
    have hcref : t.cref = s.cref := (congrArg State.cref hmask :)
    have hpend : t.pend = s.pend := (congrArg State.pend hmask :)
    exact .inl ⟨hpend.trans hp, hcref, hvms, hdms, .inr ⟨hseq, hw ▸ le_rfl, hrly⟩⟩
  rcases mstick_cases_of_pend (hs.arrive _ _).sequencer hp hi hexec with ⟨hw, rfl⟩ | ⟨hw, ⟨hcref, hlater⟩, hrunning | hended⟩
  · refine .inl ⟨hp, rfl, rfl, rfl, .inr ⟨rfl, ?_, rfl⟩⟩
    exact (toNat_sub_one (Nat.le_of_succ_le hw)).le.trans (Nat.sub_le _ _)
  · exact .inl ⟨hrunning.1, hcref, hvms, hdms, .inl (hlater hrunning.1)⟩
  · obtain ⟨hpend, hrsp, htrace⟩ := hended
    exact .inr ⟨hpend, (stepKeepsInvariant s t hs h).sequencer.seq_of_not_pend hpend, hrsp, htrace, hevent, hw⟩

end Sys2Proof.Machine
end

section
/-! SUPPORT. The timeline of a capture (43_sequencer.md R192): the waits one after another, what the relays read in each, and the state
after each MSTICK. -/

namespace Sys2Proof.Machine

/-! ### What the relays read after a write -/

theorem isClosed_relayOpen {s : State} {j : Nat} (h : j < s.rly.length) : isClosed (relayOpen j s) j = false := by
  rw [isClosed_eq_not_isOpen, isOpen_relayOpen h]
  rfl
theorem isClosed_relayClose {s : State} {j : Nat} (h : j < s.rly.length) : isClosed (relayClose j s) j = true := by
  rw [isClosed_eq_not_isOpen, isOpen_relayClose h]
  rfl
theorem isClosed_relayOpen_ne (s : State) {j k : Nat} (h : k ≠ j) : isClosed (relayOpen j s) k = isClosed s k := by
  simp [isClosed, relayPin_relayOpen_ne s j k h]
theorem isClosed_relayClose_ne (s : State) {j k : Nat} (h : k ≠ j) : isClosed (relayClose j s) k = isClosed s k := by
  simp [isClosed, relayPin_relayClose_ne s j k h]

/-! ### The waits -/

/-- The wait entered with SEQ = q in a capture from s (43_sequencer.md R183, R187 to R189). -/
def waitLength (s : State) (ref : Ref) : Nat → Half
  | 1 => s.cfg.tPrepMs
  | 2 => s.vms
  | 3 => effDelay ref s.dms s.vms
  | 4 => s.cfg.tRelMs
  | _ => 0

/-- The MSTICK, counted from the CAPTURE event, at which that wait is over; at 0 the CAPTURE event itself. -/
def waitEnd (s : State) (ref : Ref) : Nat → Nat
  | 0 => 0
  | q + 1 => waitEnd s ref q + (waitLength s ref (q + 1)).toNat

/-- t is a state of the capture from s while its relays are those of wait q: cue closed throughout, the valve closed in wait 2, the
release closed in wait 4 (43_sequencer.md R183, R187 to R190). Before the first write a relay reads what it read in s. -/
structure Driven (s : State) (ref : Ref) (q : Nat) (t : State) : Prop where
  cfg    : t.cfg = s.cfg
  vms    : t.vms = s.vms
  dms    : t.dms = s.dms
  cref   : t.cref = ref
  pend   : t.pend = true
  relays : t.rly.length = s.cfg.nrelays
  cue    : isClosed t s.cfg.cueIdx = true
  valve  : isClosed t s.cfg.valveIdx = if q = 1 then isClosed s s.cfg.valveIdx else decide (q = 2)
  rel    : isClosed t s.cfg.relIdx = if q = 4 then true else isClosed s s.cfg.relIdx

/-- The capture from s has ended in t (43_sequencer.md R190). -/
structure Ended (s t : State) : Prop where
  cfg   : t.cfg = s.cfg
  seq   : t.seq = 0
  pend  : t.pend = false
  rsp   : t.rsp = 0
  cue   : isClosed t s.cfg.cueIdx = false
  valve : isClosed t s.cfg.valveIdx = false
  rel   : isClosed t s.cfg.relIdx = false

/-- n MSTICKs after the CAPTURE event, t is where the capture from s should be: in the wait that n falls into with what is left of it in
W, or at the end. -/
inductive OnTime (s : State) (ref : Ref) (n : Nat) (t : State) : Prop
  | waiting (q : Nat) (hq : q < 4) (begun : waitEnd s ref q ≤ n) (left : n + t.w.toNat = waitEnd s ref (q + 1))
      (pos : 1 ≤ t.w.toNat) (seq : t.seq = BitVec.ofNat 3 (q + 1)) (driven : Driven s ref (q + 1) t)
  | ended (past : waitEnd s ref 4 ≤ n) (ended : Ended s t)

theorem OnTime.cfg {s t : State} {ref : Ref} {n : Nat} (h : OnTime s ref n t) : t.cfg = s.cfg := by
  cases h with
  | waiting q hq begun left pos seq driven => exact driven.cfg
  | ended past ended => exact ended.cfg

theorem OnTime.arrive {s t : State} {ref : Ref} {n : Nat} (h : OnTime s ref n t) (e : Event) (rest : List Event) :
    OnTime s ref n (arrive e rest t) := by
  cases h with
  | waiting q hq begun left pos seq driven => exact .waiting q hq begun left pos seq { driven with }
  | ended past ended => exact .ended past { ended with }

/-! ### From wait to wait -/

/-- Entering the wait after wait q, when wait q is over, is on time: the wait is entered, or it is 0 and its completion is on time. -/
theorem enterWait_onTime {s t : State} {ref : Ref} {q : Nat} (hq : q < 4) (h : Driven s ref (q + 1) t) {f : State → State}
    (hf : ∀ u, Driven s ref (q + 1) u → OnTime s ref (waitEnd s ref (q + 1)) (f u)) :
    OnTime s ref (waitEnd s ref q) (enterWait (BitVec.ofNat 3 (q + 1)) (waitLength s ref (q + 1)) f t) := by
  by_cases hn : waitLength s ref (q + 1) = 0
  · have hend : waitEnd s ref (q + 1) = waitEnd s ref q := by simp [waitEnd, hn]
    rw [hn, enterWait_zero, ← hend]
    exact hf _ { h with }
  · have hpos : (waitLength s ref (q + 1)).toNat ≠ 0 := fun h0 => hn (BitVec.eq_of_toNat_eq h0)
    rw [enterWait_pos _ hn]
    exact .waiting q hq le_rfl rfl (Nat.one_le_iff_ne_zero.mpr hpos) rfl { h with }

section relays

variable {s t : State} {ref : Ref} (hc : s.cfg.wf = true)
include hc

theorem Driven.relayClose_valve (h : Driven s ref 1 t) : Driven s ref 2 (relayClose s.cfg.valveIdx t) := by
  obtain ⟨-, -, -, hvalve, -, -, hvc, hvr, -⟩ := (config_wf_iff s.cfg).mp hc
  exact { h with
    relays := by simpa using h.relays
    cue := (isClosed_relayClose_ne t hvc.symm).trans h.cue
    valve := isClosed_relayClose (h.relays ▸ hvalve)
    rel := (isClosed_relayClose_ne t hvr.symm).trans h.rel }

theorem Driven.relayOpen_valve (h : Driven s ref 2 t) : Driven s ref 3 (relayOpen s.cfg.valveIdx t) := by
  obtain ⟨-, -, -, hvalve, -, -, hvc, hvr, -⟩ := (config_wf_iff s.cfg).mp hc
  exact { h with
    relays := by simpa using h.relays
    cue := (isClosed_relayOpen_ne t hvc.symm).trans h.cue
    valve := isClosed_relayOpen (h.relays ▸ hvalve)
    rel := (isClosed_relayOpen_ne t hvr.symm).trans h.rel }

theorem Driven.relayClose_rel (h : Driven s ref 3 t) : Driven s ref 4 (relayClose s.cfg.relIdx t) := by
  obtain ⟨-, -, -, -, -, hrel, -, hvr, hcr⟩ := (config_wf_iff s.cfg).mp hc
  exact { h with
    relays := by simpa using h.relays
    cue := (isClosed_relayClose_ne t hcr).trans h.cue
    valve := (isClosed_relayClose_ne t hvr).trans h.valve
    rel := isClosed_relayClose (h.relays ▸ hrel) }

/-- CAPTURE's own write closes the cue relay (43_sequencer.md R183). -/
theorem driven_relayClose_cue (hlen : s.rly.length = s.cfg.nrelays) :
    Driven s ref 1 (relayClose s.cfg.cueIdx { s with pend := true, cref := ref }) := by
  obtain ⟨-, -, -, -, hcue, -, hvc, -, hcr⟩ := (config_wf_iff s.cfg).mp hc
  exact {
    cfg := rfl
    vms := rfl
    dms := rfl
    cref := rfl
    pend := rfl
    relays := by simpa using hlen
    cue := isClosed_relayClose (s := { s with pend := true, cref := ref }) (hlen ▸ hcue)
    valve := isClosed_relayClose_ne _ hvc
    rel := isClosed_relayClose_ne _ hcr.symm }

/-- Complete(RELEASE) opens the release and the cue relay; the valve is open already. -/
theorem Driven.ended_completeRelease (h : Driven s ref 4 t) : Ended s (completeRelease t) := by
  obtain ⟨-, -, -, -, hcue, hrel, hvc, hvr, hcr⟩ := (config_wf_iff s.cfg).mp hc
  have hlen : (relayOpen s.cfg.relIdx t).rly.length = s.cfg.nrelays := by simpa using h.relays
  rw [completeRelease, h.cfg]
  exact {
    cfg := h.cfg
    seq := rfl
    pend := rfl
    rsp := rfl
    cue := isClosed_relayOpen (hlen ▸ hcue)
    valve := ((isClosed_relayOpen_ne _ hvc).trans (isClosed_relayOpen_ne t hvr)).trans h.valve
    rel := (isClosed_relayOpen_ne _ hcr.symm).trans (isClosed_relayOpen (h.relays ▸ hrel)) }

/-! Each completion is on time when its wait is over, last first. -/

theorem completeRelease_onTime (h : Driven s ref 4 t) : OnTime s ref (waitEnd s ref 4) (completeRelease t) :=
  .ended le_rfl (h.ended_completeRelease hc)

theorem completeDelay_onTime (h : Driven s ref 3 t) : OnTime s ref (waitEnd s ref 3) (completeDelay t) := by
  rw [completeDelay, h.cfg]
  exact enterWait_onTime (by decide) (h.relayClose_rel hc) fun _ => completeRelease_onTime hc

theorem completeValve_onTime (h : Driven s ref 2 t) : OnTime s ref (waitEnd s ref 2) (completeValve t) := by
  rw [completeValve, h.cfg, h.cref, h.dms, h.vms]
  exact enterWait_onTime (by decide) (h.relayOpen_valve hc) fun _ => completeDelay_onTime hc

theorem completePrep_onTime (h : Driven s ref 1 t) : OnTime s ref (waitEnd s ref 1) (completePrep t) := by
  rw [completePrep, h.cfg, h.vms]
  exact enterWait_onTime (by decide) (h.relayClose_valve hc) fun _ => completeValve_onTime hc

/-- CAPTURE is on time at its own event. -/
theorem execCapture_onTime (hlen : s.rly.length = s.cfg.nrelays) {e : Event} {left : List Event}
    (h : execCapture ref (arrive e left s) = .next t) : OnTime s ref 0 t := by
  cases h
  have hcue : Driven s ref 1 (relayClose s.cfg.cueIdx { arrive e left s with pend := true, cref := ref }) :=
    { driven_relayClose_cue hc hlen with }
  exact enterWait_onTime (q := 0) (by decide) hcue fun _ => completePrep_onTime hc

/-! ### One MSTICK -/

/-- An MSTICK that takes the last 1 from W, in wait q, runs the completion of that wait, and that is on time. -/
theorem mstick_completes_onTime {q : Nat} (hq : q < 4) (h : Driven s ref (q + 1) t) (hw : t.w.toNat = 1)
    (hseq : t.seq = BitVec.ofNat 3 (q + 1)) :
    ∃ i u, mstickOp t.seq t.w = .ok i ∧ exec i t = .next u ∧ OnTime s ref (waitEnd s ref (q + 1)) u := by
  have hexpired : Driven s ref (q + 1) (expired t) := { h with }
  have hop : mstickOp t.seq t.w = mstickOp (BitVec.ofNat 3 (q + 1)) 1 := by
    rw [hseq, show t.w = 1 from BitVec.eq_of_toNat_eq hw]
  rw [hop]
  match q with
  | 0 => exact ⟨_, _, rfl, rfl, completePrep_onTime hc hexpired⟩
  | 1 => exact ⟨_, _, rfl, rfl, completeValve_onTime hc hexpired⟩
  | 2 => exact ⟨_, _, rfl, rfl, completeDelay_onTime hc hexpired⟩
  | 3 => exact ⟨_, _, rfl, rfl, completeRelease_onTime hc hexpired⟩

/-- An MSTICK takes the capture from one point of its timeline to the next (43_sequencer.md R186). -/
theorem OnTime.mstick {n : Nat} (h : OnTime s ref n t) :
    ∃ i u, mstickOp t.seq t.w = .ok i ∧ exec i t = .next u ∧ OnTime s ref (n + 1) u := by
  cases h with
  | ended past ended =>
    exact ⟨.msIdle, t, by rw [ended.seq]; exact mstickOp_idle t.w, rfl, .ended (Nat.le_succ_of_le past) ended⟩
  | waiting q hq begun left pos seq driven =>
    by_cases hw : t.w.toNat = 1
    · rw [hw] at left
      rw [left]
      exact mstick_completes_onTime hc hq driven hw seq
    · have hcode : t.seq.toNat = q + 1 := by rw [seq, BitVec.toNat_ofNat, Nat.mod_eq_of_lt (by omega)]
      have hdec : (t.w - 1).toNat = t.w.toNat - 1 := toNat_sub_one pos
      have hleft : n + 1 + (t.w - 1).toNat = waitEnd s ref (q + 1) := by omega
      have hpos : 1 ≤ (t.w - 1).toNat := by omega
      exact ⟨.msCount, _, mstickOp_count (by omega) (by omega) (by omega), rfl,
        .waiting q hq (Nat.le_succ_of_le begun) hleft hpos seq { driven with }⟩

end relays

/-! ### The run -/

/-- The sequencer's instructions leave the inputs. -/
theorem exec_inputs_of_sequencer {i : Instr} {s t : State} (hi : ofSequencer i = true) (h : exec i s = .next t) :
    t.inputs = s.inputs :=
  eq_of_maskSequencer State.inputs (fun _ => rfl) (maskSequencer_exec hi h)

/-- A step that takes a command, from an unheld host. -/
theorem step_host {s : State} {c : Word} {rest : List Event} (hc : s.cfg.wf = true) (hi : s.inputs = .host c :: rest)
    (hp : s.pend = false) : step s = exec (decodeCommand c) (arrive (.host c) rest s) :=
  (step_of_nextEvent hc (nextEvent_cons hi hp)).trans (runEvent_host c _)

/-- The run of a capture and n MSTICKs from s is on time, whatever inputs wait behind them. -/
theorem run_capture_onTime {s : State} {ref : Ref} {word : Word} (hs : StateInv s) (hp : s.pend = false)
    (hword : decodeCommand word = .capture ref) (n : Nat) (rest : List Event) :
    ∃ t, Sys2Proof.core.run (n + 1) { s with inputs := .host word :: msticks n ++ rest } = .next t ∧ t.inputs = rest ∧
      OnTime s ref n t := by
  induction n generalizing rest with
  | zero =>
    obtain ⟨t, ht⟩ := exec_completes (.capture ref) (arrive (.host word) rest s)
    have hstep : step { s with inputs := .host word :: rest } = .next t := by
      rw [step_host (s := { s with inputs := .host word :: rest }) hs.cfgWf rfl hp, hword]
      exact ht
    have hleft : t.inputs = rest := exec_inputs_of_sequencer rfl ht
    exact ⟨t, run_one hstep, hleft, execCapture_onTime hs.cfgWf hs.relays ht⟩
  | succ n ih =>
    obtain ⟨t, hrun, hin, ht⟩ := ih (.mstick :: rest)
    obtain ⟨i, u, hop, hexec, hu⟩ := (ht.arrive .mstick rest).mstick hs.cfgWf
    have hstep : step t = .next u := (step_mstick (ht.cfg ▸ hs.cfgWf) hin hop).trans hexec
    have hleft : u.inputs = rest := exec_inputs_of_sequencer (ofSequencer_mstickOp hop) hexec
    refine ⟨u, ?_, hleft, hu⟩
    rw [msticks_succ, ← List.cons_append, List.append_assoc]
    exact run_snoc hrun hstep

/-! ### The table -/

theorem waitEnd_mono (s : State) (ref : Ref) : Monotone (waitEnd s ref) :=
  monotone_nat_of_le_succ fun _ => Nat.le_add_right _ _

/-- The elapsed MSTICKs fall into the wait in which the capture stands, and into no other. -/
theorem lt_waitEnd_iff {s : State} {ref : Ref} {q n : Nat} (begun : waitEnd s ref q ≤ n) (notOver : n < waitEnd s ref (q + 1))
    (k : Nat) : n < waitEnd s ref k ↔ q < k := by
  refine ⟨fun h => ?_, fun h => notOver.trans_le (waitEnd_mono s ref h)⟩
  by_contra hle
  exact absurd (h.trans_le (waitEnd_mono s ref (Nat.le_of_not_lt hle))) (Nat.not_lt.mpr begun)

/-- What a capture that is on time reads, by the edge times of 43_sequencer.md R192. -/
theorem OnTime.readings {s t : State} {ref : Ref} {n : Nat} (h : OnTime s ref n t) :
    isClosed t s.cfg.cueIdx = decide (n < waitEnd s ref 4) ∧
    isClosed t s.cfg.valveIdx =
      (if n < waitEnd s ref 1 then isClosed s s.cfg.valveIdx else decide (n < waitEnd s ref 2)) ∧
    isClosed t s.cfg.relIdx = (if n < waitEnd s ref 3 then isClosed s s.cfg.relIdx else decide (n < waitEnd s ref 4)) ∧
    t.pend = decide (n < waitEnd s ref 4) ∧
    t.seq = (if n < waitEnd s ref 1 then 1 else if n < waitEnd s ref 2 then 2 else if n < waitEnd s ref 3 then 3
      else if n < waitEnd s ref 4 then 4 else 0) ∧
    (waitEnd s ref 4 ≤ n → t.rsp = 0) := by
  cases h with
  | waiting q hq begun left pos seq driven =>
    have hlt := lt_waitEnd_iff (s := s) (ref := ref) begun (by omega)
    simp only [← Nat.not_lt, hlt, driven.cue, driven.valve, driven.rel, driven.pend, seq]
    interval_cases q <;> simp
  | ended past ended =>
    have hge (k : Nat) (hk : k ≤ 4) : ¬ n < waitEnd s ref k := Nat.not_lt.mpr ((waitEnd_mono s ref hk).trans past)
    simp [hge, ended.cue, ended.valve, ended.rel, ended.pend, ended.seq, ended.rsp]

/-- Settles O21: the run is on time, and the edge times are the ends of the waits. -/
theorem captureTimeline : Obligations.CaptureTimeline := by
  intro s ref word n hs hp hword t1 t2 t3 t4
  have h1 : waitEnd s ref 1 = t1 := Nat.zero_add _
  have h2 : waitEnd s ref 2 = t2 := congrArg (· + s.vms.toNat) h1
  have h3 : waitEnd s ref 3 = t3 := congrArg₂ (· + ·) h2 (effDelay_toNat ref s.dms s.vms)
  have h4 : waitEnd s ref 4 = t4 := congrArg (· + s.cfg.tRelMs.toNat) h3
  obtain ⟨t, hrun, -, ht⟩ := run_capture_onTime hs hp hword n []
  have hlen : (Event.host word :: msticks n).length = n + 1 := by simp [msticks]
  have hreadings := ht.readings
  rw [h1, h2, h3, h4] at hreadings
  rw [List.append_nil] at hrun
  refine ⟨t, ?_, hreadings⟩
  rw [runEvents, hlen]
  exact hrun

end Sys2Proof.Machine
end

section
/-! SUPPORT. GETSTATUS (44_status.md R210): the STATUS word bit by bit (10_state.md R47), and the fields read off from its bits. -/

namespace Sys2Proof.Machine

/-! ### The bits of the STATUS word -/

/-- A number below 2^n has no bit from n on. -/
theorem testBit_eq_false_of_lt_two_pow {m n k : Nat} (hm : m < 2 ^ n) (hk : n ≤ k) : m.testBit k = false :=
  Nat.testBit_lt_two_pow (hm.trans_le (Nat.pow_le_pow_right Nat.two_pos hk))

/-- A flag that is shifted to a bit of the word stands there and nowhere else. -/
theorem flag_shiftLeft_getLsbD (b : Bool) {n : Nat} (hn : n < 32) (k : Nat) :
    (flag b <<< n).getLsbD k = (decide (k = n) && b) := by
  rcases Nat.lt_trichotomy k n with hlt | rfl | hgt
  · simp [hlt, hlt.ne]
  · cases b <;> simp [flag, hn]
  · have : k - n ≠ 0 := by omega
    cases b <;> simp [flag, hgt.ne', this]

/-- A number of at most 3 bits that is shifted to bit 20 keeps its bits. -/
theorem ofNat_shiftLeft_getLsbD {m : Nat} (hm : m < 2 ^ 3) (k : Nat) :
    (BitVec.ofNat 32 m <<< 20).getLsbD k = (decide (20 ≤ k) && m.testBit (k - 20)) := by
  by_cases hk : k < 32
  · simp [-BitVec.getLsbD_eq_getElem, BitVec.getLsbD_ofNat, hk, Nat.lt_of_le_of_lt (Nat.sub_le k 20) hk, ← decide_not]
  · simp [hk, testBit_eq_false_of_lt_two_pow hm (k := k - 20) (by omega)]

/-- NRELAYS - 1 fits the field that STATUS has for it (00_scope.md R9). -/
theorem nrelays_sub_one_lt {c : Config} (hc : c.wf = true) : c.nrelays - 1 < 2 ^ 3 := by
  obtain ⟨-, -, hle, -⟩ := (config_wf_iff c).mp hc
  omega

/-- The layout of 10_state.md R47, bit by bit. -/
theorem statusWord_getLsbD {s : State} (hc : s.cfg.wf = true) (k : Nat) :
    (statusWord s).getLsbD k =
      (decide (k = 0) && s.active || decide (k = 1) && s.ready || decide (k = 2) && busy s ||
        decide (k = 8) && s.diagReinit || decide (k = 9) && s.diagBadidx || decide (k = 10) && s.diagBadcmd ||
        decide (k = 16) && s.cfg.nbits == 12 || decide (20 ≤ k) && (s.cfg.nrelays - 1).testBit (k - 20)) := by
  have hactive : (flag s.active).getLsbD k = (decide (k = 0) && s.active) := by
    simpa using flag_shiftLeft_getLsbD s.active (n := 0) (by decide) k
  simp only [statusWord, BitVec.getLsbD_or, hactive, ofNat_shiftLeft_getLsbD (nrelays_sub_one_lt hc)]
  simp only [flag_shiftLeft_getLsbD, Nat.reduceLT]

/-- Bit 2 is BUSY. -/
theorem statusWord_getLsbD_busy {s : State} (hc : s.cfg.wf = true) : (statusWord s).getLsbD 2 = busy s := by
  rw [statusWord_getLsbD hc]
  simp

/-- The bits that 10_state.md R47 gives to no flag and to no field read 0. -/
theorem statusWord_getLsbD_reserved {s : State} (hc : s.cfg.wf = true) {k : Nat}
    (hk : 2 < k ∧ k < 8 ∨ 10 < k ∧ k < 16 ∨ 22 < k) : (statusWord s).getLsbD k = false := by
  have hflags : k ≠ 0 ∧ k ≠ 1 ∧ k ≠ 2 ∧ k ≠ 8 ∧ k ≠ 9 ∧ k ≠ 10 ∧ k ≠ 16 := by omega
  have hcount (h : 20 ≤ k) : (s.cfg.nrelays - 1).testBit (k - 20) = false :=
    testBit_eq_false_of_lt_two_pow (nrelays_sub_one_lt hc) (by omega)
  rw [statusWord_getLsbD hc]
  simpa [hflags] using hcount

/-- BUSY, as a decision on SEQ (10_state.md R43). -/
theorem busy_eq_decide (s : State) : busy s = decide (s.seq ≠ 0) := by
  rw [decide_not]
  rfl

/-! ### A field of a word -/

/-- The value of a field, from the bits of the word that it takes. -/
theorem toNat_field_eq {v : Word} {lo n m : Nat} (hm : m < 2 ^ n) (hbits : ∀ j, j < n → v.getLsbD (j + lo) = m.testBit j) :
    v.toNat / 2 ^ lo % 2 ^ n = m := by
  refine Nat.eq_of_testBit_eq fun j => ?_
  rw [Nat.testBit_mod_two_pow, Nat.testBit_div_two_pow, BitVec.testBit_toNat]
  by_cases hj : j < n
  · simp [hj, hbits j hj]
  · simp [hj, testBit_eq_false_of_lt_two_pow hm (Nat.le_of_not_lt hj)]

/-! ### The fields of the STATUS word -/

section
variable {s : State} (hc : s.cfg.wf = true)
include hc

/-- Bits 19:16 hold 1 for a build of 12 bits and 0 for one of 8. -/
theorem statusWord_nbits : (statusWord s).toNat / 2 ^ 16 % 2 ^ 4 = if s.cfg.nbits = 12 then 1 else 0 := by
  refine toNat_field_eq (by split_ifs <;> decide) fun j hj => ?_
  have hlow : ¬ 20 ≤ j + 16 := by omega
  rw [statusWord_getLsbD hc]
  split_ifs with hn
  · cases j <;> simp [hn, hlow, Nat.testBit_add_one]
  · simp [hn, hlow]

/-- Bits 22:20 hold NRELAYS - 1. -/
theorem statusWord_nrelays : (statusWord s).toNat / 2 ^ 20 % 2 ^ 3 = s.cfg.nrelays - 1 := by
  refine toNat_field_eq (nrelays_sub_one_lt hc) fun j _ => ?_
  rw [statusWord_getLsbD hc]
  simp

end

/-! ### GETSTATUS -/

/-- The response of GETSTATUS is the STATUS word of the state before it, and the diagnostics are cleared in the same event
(44_status.md R210). -/
theorem exec_getstatus (s : State) : exec .getstatus s = .next (respond (statusWord s) (clearDiags s)) := rfl

/-- Settles O24: each clause reads the layout, and the invariant makes BUSY the pending capture, which the host waits for. -/
theorem getstatusReturnsStatusAndClearsDiagnostics : Obligations.GetstatusReturnsStatusAndClearsDiagnostics := by
  refine ⟨by decide, fun s hc => ⟨statusWord s, exec_getstatus s, ?active, ?ready, ?busy, ?reinit, ?badidx, ?badcmd,
    statusWord_nbits hc, statusWord_nrelays hc, ?low, ?middle, ?high, fun hs hp => ?idle⟩⟩
  case active | ready | reinit | badidx | badcmd =>
    rw [statusWord_getLsbD hc]
    simp
  case busy => rw [statusWord_getLsbD_busy hc, busy_eq_decide]
  case low => exact toNat_field_eq (by decide) fun j hj => by simp [statusWord_getLsbD_reserved hc (k := j + 3) (by omega)]
  case middle => exact toNat_field_eq (by decide) fun j hj => by simp [statusWord_getLsbD_reserved hc (k := j + 11) (by omega)]
  case high =>
    have hlt : (statusWord s).toNat < 2 ^ 23 :=
      Nat.lt_pow_two_of_testBit _ fun k hk => statusWord_getLsbD_reserved hc (by omega)
    exact Nat.div_eq_of_lt hlt
  case idle => rw [statusWord_getLsbD_busy hc, ← hs.pendBusy, hp]

end Sys2Proof.Machine
end

section
/-! SUPPORT. The exceptions and the order of events (60_exceptions.md): nothing traps (R225), a GETPRESSED and a publication lose no
edge in either order (R228), and every element has its owners (R232). -/

namespace Sys2Proof.Machine

/-! ### What an instruction outside the decoder leaves unchanged -/

/-- The state without what the sequencer and the commands other than START write: two states with the same image agree on every
other element. -/
def maskOutsideDecoder (s : State) : State :=
  { s with
    active := false, newp := 0, rly := [], seq := 0, w := 0, cref := .fromOpen, vms := 0, dms := 0
    diagReinit := false, diagBadidx := false, diagBadcmd := false, pend := false, rsp := 0, trace := [] }

/-- An observation that masking does not change agrees in two states of one image. -/
theorem eq_of_maskOutsideDecoder {α : Type} (f : State → α) (hf : ∀ u, f (maskOutsideDecoder u) = f u) {s t : State}
    (h : maskOutsideDecoder t = maskOutsideDecoder s) : f t = f s := by
  rw [← hf t, h, hf]

theorem maskOutsideDecoder_raiseDiag (d : Diag) (s : State) :
    maskOutsideDecoder (raiseDiag d s) = maskOutsideDecoder s := by
  cases d <;> rfl

theorem maskOutsideDecoder_resolve (idx : BitVec 3) (s : State) :
    maskOutsideDecoder (resolve idx s).2 = maskOutsideDecoder s := by
  rcases resolve_cases idx s with ⟨_, h⟩ | ⟨_, h⟩ <;> rw [h]
  exact maskOutsideDecoder_raiseDiag _ _

/-- The commands other than START and the sequencer write nothing of the timer, the bit decoder and its two lines. -/
theorem maskOutsideDecoder_exec {i : Instr} {s t : State} (h : exec i s = .next t) (hd : ofDecoder i = false)
    (hs : i ≠ .start) : maskOutsideDecoder t = maskOutsideDecoder s := by
  cases i with
  | capture _ | msIdle | msCount | seqEndPrep | seqEndValve | seqEndDelay | seqEndRelease =>
    exact eq_of_maskSequencer maskOutsideDecoder (fun _ => rfl) (maskSequencer_exec rfl h)
  | start => exact absurd rfl hs
  | ropen idx | rclose idx | risopen idx | risclosed idx => cases h; exact maskOutsideDecoder_resolve idx s
  | illegal _ => cases h; exact maskOutsideDecoder_raiseDiag .badcmd s
  | stop | getheld | getpressed | setv _ | setd _ | getstatus => cases h; rfl
  | _ => cases hd

/-! ### Nothing traps -/

/-- The model's own fields and the configuration: what surrounds the block and no instruction writes (log 1, 3, 5). -/
def surroundings (s : State) : Config × List Event × Nat × Bool := (s.cfg, s.inputs, s.now, s.data)

/-- An instruction of the decoder leaves the surroundings, so does START, and so does every other instruction. -/
theorem exec_surroundings {i : Instr} {s t : State} (h : exec i s = .next t) : surroundings t = surroundings s := by
  cases hd : ofDecoder i with
  | true => exact eq_of_maskDecoder surroundings (fun _ => rfl) (maskDecoder_exec hd h)
  | false =>
    by_cases hs : i = .start
    · subst hs
      cases h
      split_ifs <;> rfl
    · exact eq_of_maskOutsideDecoder surroundings (fun _ => rfl) (maskOutsideDecoder_exec h hd hs)

/-- With a defined SEQ and a wait that has not underflowed, an MSTICK selects an instruction (43_sequencer.md R186). -/
theorem SequencerInv.exists_mstickOp {s : State} (hs : SequencerInv s) : ∃ i, mstickOp s.seq s.w = .ok i := by
  have hle := hs.seqLe
  rcases mstickOp_cases s.seq s.w with ⟨-, h⟩ | ⟨hge, -⟩ | ⟨hpos, -, hw, -⟩ | ⟨-, -, -, h⟩ | ⟨-, -, h⟩ | ⟨-, -, h⟩ |
    ⟨-, -, h⟩ | ⟨-, -, h⟩
  · exact ⟨_, h⟩
  · omega
  · have hbusy : s.seq ≠ seqIdle := fun h0 => Nat.ne_of_gt hpos (congrArg BitVec.toNat h0)
    have := hs.waiting hbusy
    omega
  all_goals exact ⟨_, h⟩

/-- In a state of the invariant every event selects an instruction. -/
theorem StateInv.exists_select {s : State} (hs : StateInv s) (e : Event) : ∃ i, select e s = .ok i :=
  match e with
  | .host c => ⟨decodeCommand c, rfl⟩
  | .tick (.timer _) => ⟨ttickOp s.active s.tcnt s.tcmp, rfl⟩
  | .tick .ms => hs.sequencer.exists_mstickOp

/-- Settles O39: every instruction completes, and a state of the invariant selects one for whichever event comes. -/
theorem nothingTraps : Obligations.NothingTraps := by
  refine ⟨fun i s => ?exec, fun s hs => ?step⟩
  case exec =>
    obtain ⟨t, ht⟩ := exec_completes i s
    have hkeep := exec_surroundings ht
    simp only [surroundings, Prod.mk.injEq] at hkeep
    exact ⟨t, ht, hkeep⟩
  case step =>
    obtain ⟨i, hi⟩ := (hs.arrive _ _).exists_select (nextEvent s).1
    rw [step_eq hs.cfgWf, runEvent_of_select hi]
    exact exec_completes i _

/-! ### A GETPRESSED and a publication -/

/-- After a GETPRESSED, a publication leaves exactly its own edges in NEWP: those it would add without the read
(60_exceptions.md R228). -/
theorem publishPhase_newp_of_getpressed {s t : State} (h : exec .getpressed s = .next t) :
    (publishPhase t).newp = (publishPhase s).keys &&& ~~~s.keys := by
  cases h
  exact BitVec.zero_or

/-- Settles O11: both orders publish the same KEYS, and the edges of the publication wait in NEWP after the first order, where the
second order's read has them beside what stood in NEWP before. -/
theorem getpressedAndPublicationCommuteOnEdges : Obligations.GetpressedAndPublicationCommuteOnEdges := by
  intro s
  refine ⟨_, _, _, _, rfl, rfl, rfl, rfl, rfl, rfl, publishPhase_newp_of_getpressed (s := s) rfl, ?answered⟩
  case answered =>
    obtain ⟨hedges, -⟩ := publishPhase_publishesEdges s
    rw [respond_rsp, respond_rsp, publishPhase_newp_of_getpressed (s := s) rfl, BitVec.ofNat_toNat, ← BitVec.setWidth_or]
    exact congrArg (BitVec.setWidth 32) hedges

/-! ### The owners of the timer and the lines -/

section owners

variable {i : Instr} {s t : State} (h : exec i s = .next t)
include h

/-- PHASE and TCMP are written by START and TT_MATCH (40_decoder.md R100, R104, R110). -/
theorem exec_phase_tcmp : (t.phase = s.phase ∧ t.tcmp = s.tcmp) ∨ i = .start ∨ i = .ttMatch := by
  cases i with
  | start => exact .inr (.inl rfl)
  | ttMatch => exact .inr (.inr rfl)
  | phLatch | phUnlatch | phClkhi _ | phSample _ | phPublish | ttIdle | ttCount => cases h; exact .inl ⟨rfl, rfl⟩
  | _ =>
    have hmask := maskOutsideDecoder_exec h rfl nofun
    exact .inl ⟨eq_of_maskOutsideDecoder State.phase (fun _ => rfl) hmask,
      eq_of_maskOutsideDecoder State.tcmp (fun _ => rfl) hmask⟩

/-- TCNT is written by START, TT_COUNT and TT_MATCH (40_decoder.md R100, R102). -/
theorem exec_tcnt : t.tcnt = s.tcnt ∨ i = .start ∨ i = .ttCount ∨ i = .ttMatch := by
  cases i with
  | start | ttCount | ttMatch => simp
  | phLatch | phUnlatch | phClkhi _ | phSample _ | phPublish | ttIdle => cases h; exact .inl rfl
  | _ => exact .inl (eq_of_maskOutsideDecoder State.tcnt (fun _ => rfl) (maskOutsideDecoder_exec h rfl nofun))

/-- LATCH is written by PH_LATCH and PH_UNLATCH, alone or in a compare match (40_decoder.md R104 to R106). -/
theorem exec_latch : t.latch = s.latch ∨ i = .phLatch ∨ i = .phUnlatch ∨ i = .ttMatch := by
  cases i with
  | phLatch | phUnlatch | ttMatch => simp
  | start => cases h; exact .inl (by split_ifs <;> rfl)
  | phClkhi _ | phSample _ | phPublish | ttIdle | ttCount => cases h; exact .inl rfl
  | _ => exact .inl (eq_of_maskOutsideDecoder State.latch (fun _ => rfl) (maskOutsideDecoder_exec h rfl nofun))

/-- CLK is written by the clock, sample and publish phases, alone or in a compare match (40_decoder.md R104, R107 to R109). -/
theorem exec_clk : t.clk = s.clk ∨ (∃ p, i = .phClkhi p) ∨ (∃ p, i = .phSample p) ∨ i = .phPublish ∨ i = .ttMatch := by
  cases i with
  | phClkhi _ | phSample _ | phPublish | ttMatch => simp
  | start => cases h; exact .inl (by split_ifs <;> rfl)
  | phLatch | phUnlatch | ttIdle | ttCount => cases h; exact .inl rfl
  | _ => exact .inl (eq_of_maskOutsideDecoder State.clk (fun _ => rfl) (maskOutsideDecoder_exec h rfl nofun))

/-- What writes one of the two lines has no command word (30_encoding.md R90, R91). -/
theorem command_keeps_lines {w : Word} (hw : encodeCommand i = some w) : t.latch = s.latch ∧ t.clk = s.clk := by
  refine ⟨(exec_latch h).resolve_right ?_, (exec_clk h).resolve_right ?_⟩
  · rintro (rfl | rfl | rfl) <;> cases hw
  · rintro (⟨p, rfl⟩ | ⟨p, rfl⟩ | rfl | rfl) <;> cases hw

/-- A relay is written by ROPEN, RCLOSE, CAPTURE and the sequencer's completions (42_relay.md R164, R165; 43_sequencer.md R183, R187
to R190). -/
theorem exec_rly : t.rly = s.rly ∨ (∃ j, i = .ropen j) ∨ (∃ j, i = .rclose j) ∨ (∃ r, i = .capture r) ∨
    i = .seqEndPrep ∨ i = .seqEndValve ∨ i = .seqEndDelay ∨ i = .seqEndRelease := by
  cases i with
  | ropen _ | rclose _ | capture _ | seqEndPrep | seqEndValve | seqEndDelay | seqEndRelease => simp
  | phLatch | phUnlatch | phClkhi _ | phSample _ | phPublish | ttIdle | ttCount | ttMatch =>
    exact .inl (eq_of_maskDecoder State.rly (fun _ => rfl) (maskDecoder_exec rfl h))
  | start => cases h; exact .inl (by split_ifs <;> rfl)
  | risopen idx | risclosed idx => cases h; exact .inl (resolve_rly idx s)
  | stop | getheld | getpressed | setv _ | setd _ | getstatus | illegal _ | msIdle | msCount => cases h; exact .inl rfl

end owners

/-! ### A changed relay was written -/

/-- From s to t the trace grew, and by a write of each relay whose pin changed (20_memory.md R73). -/
def RelayChangesRecorded (s t : State) : Prop :=
  ∃ new, t.trace = new ++ s.trace ∧ ∀ j, t.rly[j]? ≠ s.rly[j]? → ∃ level, .pin (.rly j) level ∈ new

/-- Where no relay changes, nothing has to be recorded. -/
theorem RelayChangesRecorded.of_rly_eq {s t : State} {new : List Obs} (htrace : t.trace = new ++ s.trace)
    (hrly : t.rly = s.rly) : RelayChangesRecorded s t :=
  ⟨new, htrace, fun j hj => absurd (by rw [hrly]) hj⟩

theorem RelayChangesRecorded.trans {s t u : State} (hst : RelayChangesRecorded s t) (htu : RelayChangesRecorded t u) :
    RelayChangesRecorded s u := by
  obtain ⟨first, hfirst, hwrote⟩ := hst
  obtain ⟨second, hsecond, hrewrote⟩ := htu
  refine ⟨second ++ first, by rw [hsecond, hfirst, List.append_assoc], fun j hj => ?_⟩
  by_cases hlast : u.rly[j]? = t.rly[j]?
  · obtain ⟨level, hmem⟩ := hwrote j (hlast ▸ hj)
    exact ⟨level, List.mem_append_right _ hmem⟩
  · obtain ⟨level, hmem⟩ := hrewrote j hlast
    exact ⟨level, List.mem_append_left _ hmem⟩

/-- A write of relay k changes no other relay, and is recorded. -/
theorem relayChangesRecorded_pinWrite (k : Nat) (v : Bool) (s : State) :
    RelayChangesRecorded s (pinWrite (.rly k) v s) := by
  refine ⟨[.pin (.rly k) v], rfl, fun j hj => ?_⟩
  have hk : k = j := by
    by_contra hne
    exact hj (List.getElem?_set_ne hne)
  exact ⟨v, by simp [hk]⟩

theorem relayChangesRecorded_resolve (idx : BitVec 3) (s : State) : RelayChangesRecorded s (resolve idx s).2 :=
  .of_rly_eq (new := []) (resolve_trace idx s) (resolve_rly idx s)

theorem relayChangesRecorded_expired (s : State) : RelayChangesRecorded s (expired s) :=
  .of_rly_eq (new := []) rfl rfl

theorem RelayChangesRecorded.respond {s t : State} (h : RelayChangesRecorded s t) (v : Word) :
    RelayChangesRecorded s (respond v t) :=
  h.trans (.of_rly_eq (new := [.response v]) rfl rfl)

/-- Entering a wait writes no relay, and its completion records what it writes. -/
theorem RelayChangesRecorded.enterWait {s t : State} (h : RelayChangesRecorded s t) {f : State → State}
    (hf : ∀ u, RelayChangesRecorded u (f u)) (q : BitVec 3) (n : Half) : RelayChangesRecorded s (enterWait q n f t) := by
  unfold Machine.enterWait
  split
  · exact h.trans (hf { t with seq := q, w := n })
  · exact h

theorem relayChangesRecorded_completeRelease (s : State) : RelayChangesRecorded s (completeRelease s) :=
  ((relayChangesRecorded_pinWrite _ _ _).trans (relayChangesRecorded_pinWrite _ _ _)).respond 0

theorem relayChangesRecorded_completeDelay (s : State) : RelayChangesRecorded s (completeDelay s) :=
  (relayChangesRecorded_pinWrite _ _ _).enterWait relayChangesRecorded_completeRelease _ _

theorem relayChangesRecorded_completeValve (s : State) : RelayChangesRecorded s (completeValve s) :=
  (relayChangesRecorded_pinWrite _ _ _).enterWait relayChangesRecorded_completeDelay _ _

theorem relayChangesRecorded_completePrep (s : State) : RelayChangesRecorded s (completePrep s) :=
  (relayChangesRecorded_pinWrite _ _ _).enterWait relayChangesRecorded_completeValve _ _

/-- The owners of the relays record what they write, and every other instruction leaves the relays. -/
theorem exec_relayChangesRecorded {i : Instr} {s t : State} (h : exec i s = .next t) : RelayChangesRecorded s t := by
  cases i with
  | ropen idx | rclose idx =>
    cases h
    exact ((relayChangesRecorded_resolve idx s).trans (relayChangesRecorded_pinWrite _ _ _)).respond 0
  | capture ref =>
    cases h
    have hpending : RelayChangesRecorded s { s with pend := true, cref := ref } := .of_rly_eq (new := []) rfl rfl
    exact (hpending.trans (relayChangesRecorded_pinWrite _ _ _)).enterWait relayChangesRecorded_completePrep _ _
  | seqEndPrep => cases h; exact (relayChangesRecorded_expired s).trans (relayChangesRecorded_completePrep _)
  | seqEndValve => cases h; exact (relayChangesRecorded_expired s).trans (relayChangesRecorded_completeValve _)
  | seqEndDelay => cases h; exact (relayChangesRecorded_expired s).trans (relayChangesRecorded_completeDelay _)
  | seqEndRelease => cases h; exact (relayChangesRecorded_expired s).trans (relayChangesRecorded_completeRelease _)
  | _ => exact .of_rly_eq (exec_trace h) ((exec_rly h).resolve_right (by simp))

/-- Settles O46: each register and line by the lemma on its owners, and the relays' changes by what the owners record. -/
theorem timerLinesAndRelaysHaveOneOwner : Obligations.TimerLinesAndRelaysHaveOneOwner := by
  intro i s t h
  obtain ⟨new, htrace, hwrites⟩ := exec_relayChangesRecorded h
  refine ⟨fun hne => (exec_phase_tcmp h).resolve_left ?timer, (exec_tcnt h).resolve_left, (exec_latch h).resolve_left,
    (exec_clk h).resolve_left, fun ⟨_, hw⟩ => command_keeps_lines h hw, (exec_rly h).resolve_left, fun j hj => ?write⟩
  case timer => exact fun ⟨hphase, htcmp⟩ => hne.elim (· hphase) (· htcmp)
  case write =>
    obtain ⟨level, hmem⟩ := hwrites j hj
    exact ⟨new, level, htrace, hmem⟩

end Sys2Proof.Machine
end

section
/-! SUPPORT. Reset (70_reset_and_hazards.md): the value of every element (R250), and the relays' open levels (R251). -/

namespace Sys2Proof.Machine

/-- Settles O40: each clause is a field of the reset state. -/
theorem resetValues : Obligations.ResetValues := by
  intro c s
  and_intros <;> rfl

/-- After reset every pin stands at the level that reads open (42_relay.md R162), whatever the relay's polarity. -/
theorem isOpen_resetFor (c : Config) (j : Nat) : isOpen (State.resetFor c) j = true :=
  beq_self_eq_true (invertAt c j)

/-- Settles O41: the pins are the polarities, so every relay reads open, and a query of a valid index responds with what it reads. -/
theorem relaysAreOpenAfterReset : Obligations.RelaysAreOpenAfterReset := by
  intro c idx hidx
  obtain ⟨-, t, -, -, hexec, hrsp⟩ :=
    queries_of_isOpen (t := State.resetFor c) hidx (isOpen_resetFor c idx.toNat)
  exact ⟨rfl, t, hexec, hrsp⟩

end Sys2Proof.Machine
end

section
/-! SUPPORT. The round trip of the command words (30_encoding.md R80 to R87), and the selection by the ticks (R91). A word that hits a
row is the row's pattern with the bits that the row's mask leaves free, and encoding what the row builds puts the same two together. -/

namespace Sys2Proof.Machine

open Sys2Proof.Laws

/-! ### The word of an instruction decodes to it -/

/-- `RoundTrip.Statement` of every instruction, collected from the model's one law per constructor. -/
theorem roundTrip : ∀ i : Instr, RoundTrip.Statement i
  | .start => RoundTrip.start
  | .stop => RoundTrip.stop
  | .getheld => RoundTrip.getheld
  | .getpressed => RoundTrip.getpressed
  | .ropen idx => RoundTrip.ropen idx
  | .rclose idx => RoundTrip.rclose idx
  | .risopen idx => RoundTrip.risopen idx
  | .risclosed idx => RoundTrip.risclosed idx
  | .setv ms => RoundTrip.setv ms
  | .setd ms => RoundTrip.setd ms
  | .capture ref => RoundTrip.capture ref
  | .getstatus => RoundTrip.getstatus
  | .illegal word => RoundTrip.illegal word
  | .phLatch => RoundTrip.phLatch
  | .phUnlatch => RoundTrip.phUnlatch
  | .phClkhi p => RoundTrip.phClkhi p
  | .phSample p => RoundTrip.phSample p
  | .phPublish => RoundTrip.phPublish
  | .ttIdle => RoundTrip.ttIdle
  | .ttCount => RoundTrip.ttCount
  | .ttMatch => RoundTrip.ttMatch
  | .msIdle => RoundTrip.msIdle
  | .msCount => RoundTrip.msCount
  | .seqEndPrep => RoundTrip.seqEndPrep
  | .seqEndValve => RoundTrip.seqEndValve
  | .seqEndDelay => RoundTrip.seqEndDelay
  | .seqEndRelease => RoundTrip.seqEndRelease

/-! ### Every word is the word of what it decodes to -/

/-- A word that hits a row is the row's pattern with the word's bits outside the mask (30_encoding.md R85). -/
theorem pat_or_free_of_hit {r : Row} {w : Word} (h : r.hits w = true) : r.pat ||| w &&& ~~~r.mask = w := by
  have hpat : w &&& r.mask = r.pat := beq_iff_eq.mp h
  rw [← hpat, ← BitVec.and_or_distrib_left, BitVec.or_not_self, BitVec.and_allOnes]

/-- IDX in its place is what the relay rows' mask leaves free (30_encoding.md R82). -/
theorem fieldIdx_shiftLeft (w : Word) : (fieldIdx w).setWidth 32 <<< 24 = w &&& ~~~0xF8FFFFFF#32 := by
  apply BitVec.eq_of_getLsbD_eq
  intro i hi
  rw [fieldIdx]
  interval_cases i <;> simp

/-- IMM16 in its place is what the duration rows' mask leaves free (30_encoding.md R84). -/
theorem fieldImm16_setWidth (w : Word) : (fieldImm16 w).setWidth 32 = w &&& ~~~0xFFFF0000#32 := by
  apply BitVec.eq_of_getLsbD_eq
  intro i hi
  rw [fieldImm16]
  interval_cases i <;> simp

theorem fieldRef_bit (w : Word) : (fieldRef w).bit = w.getLsbD 27 := by
  unfold fieldRef
  cases w.getLsbD 27 <;> rfl

/-! The word packed from the one field that a row's mask leaves free is the row's pattern with the free bits. -/

theorem packCommand_fieldIdx (op : BitVec 4) (w : Word) :
    packCommand op 0 (fieldIdx w) 0 = packCommand op 0 0 0 ||| w &&& ~~~0xF8FFFFFF#32 := by
  rw [packCommand_relay, fieldIdx_shiftLeft]

theorem packCommand_fieldImm16 (op : BitVec 4) (w : Word) :
    packCommand op 0 0 (fieldImm16 w) = packCommand op 0 0 0 ||| w &&& ~~~0xFFFF0000#32 := by
  rw [packCommand_duration, fieldImm16_setWidth]

theorem packCommand_fieldRef (op : BitVec 4) (w : Word) :
    packCommand op (BitVec.ofBool (fieldRef w).bit) 0 0 = packCommand op 0 0 0 ||| w &&& ~~~0xF7FFFFFF#32 := by
  rw [fieldRef_bit]
  apply BitVec.eq_of_getLsbD_eq
  intro i hi
  rw [BitVec.getLsbD_or, packCommand_getLsbD, packCommand_getLsbD]
  interval_cases i <;> simp

theorem pat_eq_or_free (pat w : Word) : pat = pat ||| w &&& ~~~0xFFFFFFFF#32 := by simp

/-- Encoding what a row builds from a word gives the row's pattern with the word's bits outside the mask, row by row in the order
of R85: four commands without an operand, the relay commands, the durations, CAPTURE and GETSTATUS. -/
theorem encodeCommand_build {r : Row} (hr : r ∈ rows) (w : Word) :
    encodeCommand (r.build w) = some (r.pat ||| w &&& ~~~r.mask) := by
  simp only [rows, List.mem_cons, List.not_mem_nil, or_false] at hr
  rcases hr with rfl | rfl | rfl | rfl | rfl | rfl | rfl | rfl | rfl | rfl | rfl | rfl <;> apply congrArg some
  · exact pat_eq_or_free _ w
  · exact pat_eq_or_free _ w
  · exact pat_eq_or_free _ w
  · exact pat_eq_or_free _ w
  · exact packCommand_fieldIdx 5 w
  · exact packCommand_fieldIdx 6 w
  · exact packCommand_fieldIdx 7 w
  · exact packCommand_fieldIdx 8 w
  · exact packCommand_fieldImm16 9 w
  · exact packCommand_fieldImm16 10 w
  · exact packCommand_fieldRef 11 w
  · exact pat_eq_or_free _ w

/-- What a row builds is well formed at every value of its field (30_encoding.md R82 to R84). -/
theorem build_wf {r : Row} (hr : r ∈ rows) (w : Word) (n : Nat) : (r.build w).wf n = true := by
  revert r
  simp [rows, Instr.wf]

/-- Settles O2: an instruction's word by the law of its constructor, a word by the row it hits; a word that hits none is carried by
ILLEGAL as it is, and spells no command. -/
theorem decodeAndEncodeCommandsAreInverse : Obligations.DecodeAndEncodeCommandsAreInverse := by
  refine ⟨fun c i w hc hwf hw => (roundTrip i c hc hwf).1 w hw, fun w => ?_⟩
  rcases decode_cases w with ⟨r, hr, hhit, hdecode⟩ | ⟨-, hdecode⟩
  · rw [hdecode, encodeCommand_build hr, pat_or_free_of_hit hhit]
    exact ⟨rfl, build_wf hr w⟩
  · have hno : isCommandWord w = false := (decodeCommand_eq_illegal_iff w).mp hdecode
    rw [hdecode]
    exact ⟨rfl, fun _ => by simp [Instr.wf, hno]⟩

/-- Settles O1: the words are closed, so the rows decide. -/
theorem commandWordsDecodeAsWritten : Obligations.CommandWordsDecodeAsWritten := by
  unfold Obligations.CommandWordsDecodeAsWritten
  decide

/-! ### What a tick selects -/

/-- Settles O4, by ACTIVE and whether the count meets the compare value, and by SEQ and W. -/
theorem ticksSelectByRegisters : Obligations.TicksSelectByRegisters := by
  refine ⟨fun _ _ => rfl, fun _ _ h => ?count, fun _ _ h => ?meets, mstickOp_idle,
    fun _ _ h1 h4 hw => mstickOp_count h1 h4 hw, ?prep, ?valve, ?delay, ?release⟩
  case count => exact ttickOp_of_not_meets h
  case meets => exact ttickOp_of_meets h
  case prep | valve | delay | release => rfl

end Sys2Proof.Machine
end
